-- ==== Sys2Proof/Word.lean ====
section
/-! DEFINITION. The bit-vector words of the SZL-8's wire formats (chapter 10) and ascending number lists. -/

namespace Sys2Proof

/-- One byte on a wire or in frame memory. -/
abbrev Byte := BitVec 8

/-- A 16-bit wrapping number: frame numbers, shot numbers, receipt marks, reference numbers. -/
abbrev Half := BitVec 16

/-- A 32-bit number: part tags, counts, settings field values on the wire. -/
abbrev Word := BitVec 32

/-- `count` numbers from `start` upward, in ascending order (R42, R46: the rebuilt free lists). -/
def ascending (start : Nat) : Nat → List Nat
  | 0 => []
  | count + 1 => start :: ascending (start + 1) count

end Sys2Proof
end

