-- ==== Sys2Proof/Syntax.lean ====
section
/-! DEFINITION. The commands of the SZL-8: one constructor per row of spec/opcode_table.json, with its operands. -/

namespace Sys2Proof

/-- A camera port CP0 to CP7 (and its uplink channel, trigger slot and trigger output). -/
abbrev Port := Fin 8

/-- An uplink channel: 0 to 7 serve the camera ports, 8 serves recalls. -/
abbrev Chan := Fin 9

/-- The two masters: the line controller and the quality office. -/
inductive Master where
  | line
  | office
deriving DecidableEq, Repr

/-- A two-level strap (GRADE, LWD). -/
inductive Level2 where
  | low
  | high
deriving DecidableEq, Repr

/-- A three-level strap (MEMSZ, PSTART); `floating` is the level the manual calls open. -/
inductive Level3 where
  | low
  | floating
  | high
deriving DecidableEq, Repr

/-- The configuration straps, sampled at power-on reset. -/
structure Straps where
  grade  : Level2
  memsz  : Level3
  lwd    : Level2
  pstart : Level3
deriving DecidableEq, Repr

/-- An error that has come about in one 64-byte block of frame memory: the block's number in the whole memory, and
whether its check code can correct it (R56) or not (R57). -/
structure MemError where
  block       : Nat
  correctable : Bool
deriving DecidableEq, Repr

/-- The commands. A request row names the master that sends it and its reference number (R141); request arguments are
the bytes of the record (R173), so that out-of-range values reach the tests the rules give them. -/
inductive Instr where
  /-- NRST asserted with these straps; `light` says whether the optics signal is present at the end of reset (R122). -/
  | powerOnReset (straps : Straps) (light : Bool)
  | storeInitEnd
  | laneOpen (k : Port) (counter width height : Half) (bpp : Byte)
  | laneLine (k : Port) (index length check : Half) (payload : List Byte)
  | laneClose (k : Port) (count : Half)
  | laneUnrecognized (k : Port) (msg : List Byte)
  | lineWriteEnd (k : Port)
  | pageRequest (k : Port)
  | trigger (m : Master) (ref : Half) (mask keep tagPresent : Byte) (tag : Word)
  | triggerEdge (pin : Fin 4)
  | triggerSlotExpiry (k : Port)
  | tag (m : Master) (ref shot : Half) (value : Word)
  | queryShot (m : Master) (ref shot : Half)
  | verdict (m : Master) (ref shot : Half) (value : Byte)
  | deadlineExpiry (shot : Half)
  | lineWatchdogExpiry
  /-- Chip select released; `mosi` are the bytes shifted in, one answer byte going out with each. -/
  | lineTransfer (mosi : List Byte)
  | unknownKindRequest (m : Master) (ref : Half) (kind : Byte)
  | read (m : Master) (ref : Half) (record field : Byte)
  | write (m : Master) (ref : Half) (record field : Byte) (value : Word)
  | lockRead (m : Master) (ref : Half) (record field : Byte)
  | writeUnlock (m : Master) (ref : Half) (record field : Byte) (value : Word)
  | unlock (m : Master) (ref : Half) (record : Byte)
  | lockExpiry (record : Fin 13)
  | enableWrite (m : Master) (ref : Half) (k : Port) (value : Word)
  | warmupArmedWrite (m : Master) (ref : Half) (k : Port) (value : Word)
  | warmupExpiry (k : Port)
  | tripThresholdWrite (m : Master) (ref : Half) (k : Port) (value : Word)
  | roundMark
  | slewStep (c : Chan)
  | trip (k : Port)
  | calmReturn (k : Port)
  | throttleTimeout (k : Port)
  | clearFault (m : Master) (ref : Half) (port : Byte)
  | darkMaskWrite (m : Master) (ref : Half) (value : Word)
  | darkTestExpiry
  | lineWatchdogWrite (m : Master) (ref : Half) (value : Word)
  | targetWrite (m : Master) (ref : Half) (c : Chan) (value : Word)
  | ceilingWrite (m : Master) (ref : Half) (c : Chan) (value : Word)
  | slewCodeWrite (m : Master) (ref : Half) (c : Chan) (value : Word)
  /-- Field 0 is the global field of the mask record that serves `whose`, field k+1 its field of port k (R160). -/
  | maskWrite (m : Master) (ref : Half) (whose : Master) (field : Fin 9) (value : Word)
  /-- `errors` are the memory errors that have come about since the last data slot (log entry 11). -/
  | dataSlot (errors : List MemError)
  | controlSlot
  | recallFrame (m : Master) (ref : Half) (port : Byte) (frame : Half)
  | receipt (m : Master) (ref : Half) (port : Byte) (mark : Half)
  | hold (m : Master) (ref : Half) (port : Byte) (frame : Half)
  | unhold (m : Master) (ref : Half) (port : Byte) (frame : Half)
  | releaseKeep (m : Master) (ref : Half) (port : Byte) (frame : Half)
  | queryFrame (m : Master) (ref : Half) (port : Byte) (frame : Half)
  | flushStore (m : Master) (ref : Half)
  /-- `flags` are the ten bytes of the event flag layout (R172). -/
  | clearEvents (m : Master) (ref : Half) (flags : List Byte)
  | readCounts (m : Master) (ref : Half) (scope : Byte)
  | restartLink (m : Master) (ref : Half)
  | lossOfLight
  | lightReturn
  /-- `bytes` is the whole cell: a 16-byte header and the payload area (R171). -/
  | returnCell (bytes : List Byte)
  | windowEnd
  | recoveryExpiry
  | chipSelectAssertion
deriving DecidableEq, Repr

/-- The request kinds of R173, with their arguments as the record carries them. `unknown` stands for a record of no
listed kind, or of a wrong length for its kind (R174). -/
inductive Request where
  | read (record field : Byte)
  | write (record field : Byte) (value : Word)
  | lockRead (record field : Byte)
  | writeUnlock (record field : Byte) (value : Word)
  | unlock (record : Byte)
  | trigger (mask keep tagPresent : Byte) (tag : Word)
  | tag (shot : Half) (value : Word)
  | verdict (shot : Half) (value : Byte)
  | queryFrame (port : Byte) (frame : Half)
  | queryShot (shot : Half)
  | recallFrame (port : Byte) (frame : Half)
  | receipt (port : Byte) (mark : Half)
  | hold (port : Byte) (frame : Half)
  | unhold (port : Byte) (frame : Half)
  | releaseKeep (port : Byte) (frame : Half)
  | clearEvents (flags : List Byte)
  | clearFault (port : Byte)
  | readCounts (scope : Byte)
  | restartLink
  | flushStore
  | unknown (kind : Byte)
deriving DecidableEq, Repr

/-- A lane message as a camera port reads it (R177). -/
inductive LaneMessage where
  | opening (counter width height : Half) (bpp : Byte)
  | line (index length check : Half) (payload : List Byte)
  | closing (count : Half)
deriving DecidableEq, Repr

end Sys2Proof
end

