-- ==== Sys2Proof/Decode.lean ====
section
/-! DEFINITION. Reading the wire formats of chapter 10: multi-byte fields, the 16-bit sum, lane messages (R177, R178),
request records (R173, R174), return-lane cells (R171); and decodeTableWord, for which the table gives no bits. -/

namespace Sys2Proof

/-- Byte `i` of a record; a byte that is not there reads as zero (log entry 20). -/
def byteAt (bytes : List Byte) (i : Nat) : Byte := bytes.getD i 0

/-- The two-byte field at byte `i`, most significant byte first (R167). -/
def be16At (bytes : List Byte) (i : Nat) : Half := byteAt bytes i ++ byteAt bytes (i + 1)

/-- The four-byte field at byte `i`, most significant byte first (R167). -/
def be32At (bytes : List Byte) (i : Nat) : Word :=
  (byteAt bytes i ++ byteAt bytes (i + 1)) ++ (byteAt bytes (i + 2) ++ byteAt bytes (i + 3))

/-- The two bytes of a 16-bit field, most significant first (R167). -/
def be16 (x : Half) : List Byte := [x.extractLsb' 8 8, x.extractLsb' 0 8]

/-- The four bytes of a 32-bit field, most significant first (R167). -/
def be32 (x : Word) : List Byte :=
  [x.extractLsb' 24 8, x.extractLsb' 16 8, x.extractLsb' 8 8, x.extractLsb' 0 8]

/-- The 16-bit sum, modulo 65,536, of bytes taken as 16-bit words, the first byte of each the more significant; an odd
final byte forms a word with a zero less significant half (R8, R167). -/
def sum16 : List Byte → Half
  | [] => 0
  | [a] => a ++ (0 : Byte)
  | a :: b :: rest => (a ++ b : Half) + sum16 rest

/-- A cell's header check: the sum of its header bytes 0 to 13 (R167). -/
def headerCheck (cell : List Byte) : Half := sum16 (cell.take 14)

/-- Whether a return-lane cell's header check holds (R124, R167). -/
def headerValid (cell : List Byte) : Bool := headerCheck cell = be16At cell 14

/-- A lane message as its byte 0 and its delimited size give it; none when it is not recognized (R177, R178). -/
def decodeLane (msg : List Byte) : Option LaneMessage :=
  match (byteAt msg 0).toNat with
  | 1 => if msg.length < 8 then none
         else some (.opening (be16At msg 1) (be16At msg 3) (be16At msg 5) (byteAt msg 7))
  | 2 => if msg.length < 7 then none
         else some (.line (be16At msg 1) (be16At msg 3) (be16At msg 5) (msg.drop 7))
  | 3 => if msg.length < 3 then none else some (.closing (be16At msg 1))
  | _ => none

/-- The length the table of R173 gives a request kind; none for a kind that is not in it. -/
def requestLength (kind : Byte) : Option Nat :=
  match kind.toNat with
  | 0x01 => some 6
  | 0x02 => some 10
  | 0x03 => some 6
  | 0x04 => some 10
  | 0x05 => some 5
  | 0x06 => some 11
  | 0x07 => some 10
  | 0x08 => some 7
  | 0x09 => some 7
  | 0x0A => some 6
  | 0x0B => some 7
  | 0x0C => some 7
  | 0x0D => some 7
  | 0x0E => some 7
  | 0x0F => some 7
  | 0x10 => some 14
  | 0x11 => some 5
  | 0x12 => some 5
  | 0x13 => some 4
  | 0x14 => some 4
  | _ => none

/-- The request of a record of a known kind and the right length, by the argument table of R173. -/
def requestOf (r : List Byte) : Request :=
  match (byteAt r 1).toNat with
  | 0x01 => .read (byteAt r 4) (byteAt r 5)
  | 0x02 => .write (byteAt r 4) (byteAt r 5) (be32At r 6)
  | 0x03 => .lockRead (byteAt r 4) (byteAt r 5)
  | 0x04 => .writeUnlock (byteAt r 4) (byteAt r 5) (be32At r 6)
  | 0x05 => .unlock (byteAt r 4)
  | 0x06 => .trigger (byteAt r 4) (byteAt r 5) (byteAt r 6) (be32At r 7)
  | 0x07 => .tag (be16At r 4) (be32At r 6)
  | 0x08 => .verdict (be16At r 4) (byteAt r 6)
  | 0x09 => .queryFrame (byteAt r 4) (be16At r 5)
  | 0x0A => .queryShot (be16At r 4)
  | 0x0B => .recallFrame (byteAt r 4) (be16At r 5)
  | 0x0C => .receipt (byteAt r 4) (be16At r 5)
  | 0x0D => .hold (byteAt r 4) (be16At r 5)
  | 0x0E => .unhold (byteAt r 4) (be16At r 5)
  | 0x0F => .releaseKeep (byteAt r 4) (be16At r 5)
  | 0x10 => .clearEvents (r.drop 4)
  | 0x11 => .clearFault (byteAt r 4)
  | 0x12 => .readCounts (byteAt r 4)
  | 0x13 => .restartLink
  | 0x14 => .flushStore
  | k => .unknown (BitVec.ofNat 8 k)

/-- The request a run of bytes carries, with its reference number: the length in byte 0 says how many bytes are the
record. None when it carries no request: kind 00H, a length byte below 4, or fewer bytes than the length calls for
(R138, R174). A length that differs from the one its kind calls for makes the kind unknown (R174 step 1). -/
def decodeRequest (bytes : List Byte) : Option (Half × Request) :=
  let len := (byteAt bytes 0).toNat
  let r := bytes.take len
  let kind := byteAt bytes 1
  if len < 4 ∨ kind = 0 ∨ bytes.length < len then none
  else if requestLength kind = some len then some (be16At r 2, requestOf r)
  else some (be16At r 2, .unknown kind)

/-- What a return-lane cell of a valid header is, by its kind byte (R171). -/
inductive ReturnKind where
  | request
  | receipt
  | other
deriving DecidableEq, Repr

/-- The kind of a return-lane cell: 11H request, 12H receipt; idle fill and unrecognized kinds are handed to nobody
(R124, R135, R171). -/
def returnKind (cell : List Byte) : ReturnKind :=
  match (byteAt cell 0).toNat with
  | 0x11 => .request
  | 0x12 => .receipt
  | _ => .other

/-- The record at the start of a return-lane cell's payload area (R171). -/
def returnPayload (cell : List Byte) : List Byte := (cell.drop 16).take 512

/-- The command a word spells by the table's bits. No row of spec/opcode_table.json gives bits, so no word spells one. -/
def decodeTableWord (_nbits _w : Nat) : Option Instr := none

end Sys2Proof
end

