-- ==== Sys2Proof/Config.lean ====
section
/-! DEFINITION. The fixed numbers of the manual, what the straps select, and the free values. -/

namespace Sys2Proof.Config

/-- Bytes of a page of frame memory (R41). -/
abbrev pageBytes : Nat := 65536

/-- Bytes of a block of frame memory, the unit of the check code (R41). -/
abbrev blockBytes : Nat := 64

/-- The catalogue's frame records (R44). -/
abbrev recordCount : Nat := 4096

/-- The most bytes a frame may store: 512 pages (R9). -/
abbrev frameLimit : Nat := 33554432

/-- Line slots of a staging buffer (R10). -/
abbrev stagingSlots : Nat := 8

/-- Records a live queue may hold (R97). -/
abbrev liveQueueMax : Nat := 64

/-- Open shots the shot table may hold (R20). -/
abbrev openShotMax : Nat := 64

/-- Numbers the recent-shot window may hold (R20). -/
abbrev shotWindowMax : Nat := 256

/-- Entries the recall queue may hold (R111). -/
abbrev recallMax : Nat := 16

/-- Answers the office answer queue may hold (R135). -/
abbrev officeAnswerMax : Nat := 8

/-- Microseconds of a millisecond: every timer of the model counts microseconds. -/
abbrev usPerMs : Nat := 1000

/-- A lock's lifetime in microseconds: 50 ms (R154). -/
abbrev lockLife : Nat := 50 * usPerMs

/-- The recovery limit in microseconds: 20 ms (R128). -/
abbrev recoveryLimit : Nat := 20 * usPerMs

/-- Round marks of a blanking period (R70). -/
abbrev blankingRounds : Nat := 32

/-- Calm rounds that return a THROTTLED port to RUN (R74). -/
abbrev calmRounds : Nat := 256

/-- Credit units a data slot costs (R99). -/
abbrev slotPrice : Nat := 16

/-- FREE VALUE. How many bytes a page writer places in memory in one microsecond of the timebase, before it is bounded
by what it can place without a further page (log entry 6). -/
opaque freeProgress : Nat → Nat

/-- FREE VALUE. The byte at an address of a block whose error the check code cannot correct, as one read hands it over
(R57), and the bytes of a block in error once a further write has covered them with a new check code (R54): the
arguments are the draw and the address (log entry 12). -/
opaque freeByte : Nat → Nat → Byte

/-- FREE VALUE. The last load closed at a round mark when the quotient lies outside the field's 0–65,535 (R65, R69;
log entry 13). -/
opaque freeLoad : Nat → Half

end Sys2Proof.Config
end

