-- ==== Sys2Proof/Machine/State.lean ====
section
/-! DEFINITION. The state of the SZL-8, block by block, as plain data, and its value right after power-on reset. -/

namespace Sys2Proof.Machine

/-! ### Why a step can stop -/

/-- No command of this block stops with a fault: every event the manual describes leaves a state. No command names an
address of frame memory: pages are handed out by the store alone, from the list R42 gives (INVENTORY, Faults). -/
inductive Fault where
deriving DecidableEq, Repr

/-- Refusals of a step. -/
inductive Refusal where
  /-- A command without a meaning in this model. Raised by exec's arms only; no arm of this model raises it. Safe. -/
  | notModelled (mnemonic : String)
deriving DecidableEq, Repr

/-! ### Containers -/

/-- One value for each camera port. -/
abbrev PerPort (α : Type) := Vector α 8

/-- Sparse data by number: (key, value) pairs, keys strictly rising, no pair holding the value an unlisted key reads as
(Machine/Ops.lean: Table.wf). -/
abbrev Table (α : Type) := List (Nat × α)

/-- Every port holding the same value. -/
def PerPort.all {α : Type} (x : α) : PerPort α := Vector.replicate 8 x

/-! ### Camera ports (chapter 1) -/

/-- Receive states of a camera port (section 1.1), in the order R19 lists them. -/
inductive ReceiveState where
  | idle
  | assembling
  | skipping
deriving DecidableEq, Repr

/-- The lane flags of section 1.8, in the order of their bits (R172). -/
inductive LaneFlag where
  | sequence
  | check
  | length
  | count
  | overrun
  | truncated
  | storeFull
deriving DecidableEq, Repr

/-- A set of lane flags, in the bit layout of R172. -/
abbrev LaneFlags := BitVec 7

/-- The damaged policies of R19, in its order. -/
inductive DamagedPolicy where
  | send
  | hold
  | discard
deriving DecidableEq, Repr

/-- A staged line: its admitted payload and the record it belongs to (R1). -/
structure StagedLine where
  payload : List Byte
  owner   : Nat
deriving DecidableEq, Repr

/-- A camera port's reception state (R1) and its reception setting (R19). -/
structure CameraPort where
  receive       : ReceiveState
  current       : Option Nat
  expected      : Nat
  linesReceived : Nat
  bytesAccepted : Nat
  staging       : List StagedLine
  /-- Bytes of the oldest staged line already in memory: the line write in progress of R12 and R18. -/
  written       : Nat
  completion    : List Nat
  nextFrame     : Half
  lastFlags     : LaneFlags
  policy        : DamagedPolicy
deriving DecidableEq, Repr

/-! ### Port supervisors and the dark-port detector (chapter 4) -/

/-- Supervision states (section 4.1), in the order R65 lists them. -/
inductive SupState where
  | disabled
  | warmup
  | run
  | throttled
  | unguarded
  | tripped
deriving DecidableEq, Repr

/-- Trip modes (R81), in its order. -/
inductive TripMode where
  | report
  | latch
  | throttle
  | throttleOff
  | throttleRelease
deriving DecidableEq, Repr

/-- Where a throttle timeout leads (R65). -/
inductive ThrottleExit where
  | none
  | toTripped
  | toUnguarded
deriving DecidableEq, Repr

/-- A port supervisor: its state (R65) and its settings (R81). Timers hold microseconds; `none` is stopped. The enable
field is not held: it is 0 exactly in DISABLED (R66). -/
structure Supervisor where
  state             : SupState
  loadBytes         : Nat
  lastLoad          : Nat
  blanking          : Nat
  overCount         : Nat
  /-- MODEL'S OWN: the last round mark brought the over-count to the deglitch count, and its TRIP is due (log entry 5). -/
  tripDue           : Bool
  calmCount         : Nat
  decimationCount   : Nat
  throttleExit      : ThrottleExit
  throttleTimer     : Option Nat
  warmupCompletions : Nat
  warmupTimer       : Option Nat
  warmupArmed       : Bool
  /-- 20, 40 ms, by position. -/
  warmupLength      : Fin 2
  threshold         : Nat
  tripMode          : TripMode
  /-- 1, 2, 4, 8 rounds, by position. -/
  deglitch          : Fin 4
  /-- 100, 200, 400, 800 ms, by position. -/
  throttleTimeout   : Fin 4
  /-- Keep 1 of 2, 4, 8, 16, by position. -/
  decimation        : Fin 4
deriving DecidableEq, Repr

/-- Pass states of the dark-port detector (R83), in the order of R86. -/
inductive PassState where
  | idle
  | waiting
  | testing
deriving DecidableEq, Repr

/-- The dark-port detector (R83) and its settings (R86). -/
structure DarkDetector where
  pass     : PassState
  current  : Port
  timer    : Option Nat
  mask     : BitVec 8
  /-- 50, 100, 200, 400 ms, by position. -/
  testTime : Fin 4
deriving DecidableEq, Repr

/-! ### The shot table (chapter 2) -/

/-- Verdicts (R22, R34), in the order of their codes (R174). -/
inductive Verdict where
  | pass
  | reject
  | review
deriving DecidableEq, Repr

/-- What created a shot (R21). -/
inductive Origin where
  | request
  | pin (n : Fin 4)
deriving DecidableEq, Repr

/-- The line state (R20), in the order of R22. -/
inductive LineState where
  | attended
  | silent
deriving DecidableEq, Repr

/-- An open shot's record (R21) with its deadline timer (R33). -/
structure Shot where
  number    : Half
  tag       : Option Word
  origin    : Origin
  wanted    : BitVec 8
  fired     : BitVec 8
  missed    : BitVec 8
  seen      : BitVec 8
  keep      : Bool
  /-- Milliseconds, copied from the SHOTS record at creation. -/
  deadline  : Nat
  /-- Microseconds left on the deadline timer. -/
  remaining : Nat
  refs      : List (Port × Nat)
deriving DecidableEq, Repr

/-- A PENDING trigger slot (R20). -/
structure TriggerSlot where
  shot      : Half
  remaining : Nat
deriving DecidableEq, Repr

/-- The shot table with the line watchdog (R20) and their settings (R22). -/
structure ShotTable where
  shots          : List Shot
  next           : Half
  window         : List Half
  slots          : PerPort (Option TriggerSlot)
  watchdog       : Option Nat
  lineState      : LineState
  deadline       : Nat
  defaultVerdict : Verdict
  pinMasks       : Vector (BitVec 8) 4
  triggerDelay   : PerPort Nat
  /-- OFF, 1 s, 2 s, 8 s, by position. -/
  watchdogPeriod : Fin 4
deriving DecidableEq, Repr

/-! ### The frame store (chapter 3) -/

/-- States of a frame record: free, or one of the six of R45. -/
inductive RecState where
  | free
  | filling
  | queued
  | sending
  | sent
  | delivered
  | held
deriving DecidableEq, Repr

/-- A catalogue record (R44). Its number is its key in the catalogue. -/
structure FrameRecord where
  port           : Port
  frame          : Half
  camera         : Half
  width          : Nat
  height         : Nat
  bpp            : Nat
  byteLength     : Nat
  chain          : List Nat
  state          : RecState
  flags          : LaneFlags
  readError      : Bool
  keep           : Bool
  lineHold       : Bool
  officeHold     : Bool
  verdictPending : Bool
  recallPending  : Bool
  shot           : Option Half
  tag            : Option Word
  cellsSent      : Nat
deriving DecidableEq, Repr

/-- A record that no OPEN has been given yet (log entry 15): what an unlisted record of the catalogue reads as. -/
def FrameRecord.blank : FrameRecord :=
  { port := 0, frame := 0, camera := 0, width := 0, height := 0, bpp := 0, byteLength := 0, chain := []
    state := .free, flags := 0, readError := false, keep := false, lineHold := false, officeHold := false
    verdictPending := false, recallPending := false, shot := none, tag := none, cellsSent := 0 }

/-- Whether a 64-byte block of frame memory agrees with its check code (section 3.4). -/
inductive BlockHealth where
  | sound
  | correctable
  | uncorrectable
deriving DecidableEq, Repr

/-- The store state (R59), in the order of R64. -/
inductive StorePhase where
  | initializing
  | ready
deriving DecidableEq, Repr

/-- The frame store (R41 to R49, R64). -/
structure Store where
  phase       : StorePhase
  memSize     : Level3
  evictSent   : Bool
  freePages   : List Nat
  freeRecords : List Nat
  ageList     : List Nat
  /-- The lookup map, keyed by 65,536 × port + frame number; a key that is not listed has no entry. -/
  lookup      : Table (Option Nat)
  /-- The frame records by number; an unlisted one is blank. -/
  catalogue   : Table FrameRecord
  /-- Frame memory by byte address; an unlisted byte reads as zero, as initialization leaves it (R59). -/
  mem         : List Host.Cell
  /-- The blocks of frame memory in error, by block number. -/
  health      : Table BlockHealth
deriving DecidableEq, Repr

/-! ### The uplink scheduler (chapter 5) -/

/-- An uplink channel (R88). -/
structure Channel where
  target     : Nat
  startRate  : Nat
  ceiling    : Nat
  slewCode   : Fin 8
  window     : Nat
  asymmetric : Bool
  surplus    : Bool
  rate       : Nat
  credit     : Nat
  countdown  : Nat
  /-- MODEL'S OWN: a round mark ran the slew countdown out, and its slew step is due (log entry 5). -/
  stepDue    : Bool
  current    : Option Nat
deriving DecidableEq, Repr

/-- Link states (section 7.1), in the order of their codes (R168). -/
inductive LinkState where
  | down
  | aligning
  | up
  | recovering
  | halted
deriving DecidableEq, Repr

/-- Kinds of uplink cell (R168), in the order of their codes. -/
inductive CellKind where
  | idle
  | data
  | answer
  | notice
deriving DecidableEq, Repr

/-- An uplink cell as it is sent (R168, R169): the header's fields and the meaningful payload bytes, which fill the start
of the payload area; the rest of it is zero. -/
structure UplinkCell where
  kind      : CellKind
  channel   : Nat
  port      : Nat
  isRecall  : Bool
  poison    : Bool
  last      : Bool
  frame     : Half
  index     : Nat
  linkState : LinkState
  payload   : List Byte
deriving DecidableEq, Repr

/-- The uplink scheduler (R88, R97, R99). -/
structure Uplink where
  chans       : Vector Channel 9
  live        : PerPort (List Nat)
  lastCredit  : Chan
  lastSurplus : Chan
  /-- MODEL'S OWN: the cell the latest slot carried (log entry 17). -/
  sent        : Option UplinkCell
deriving DecidableEq, Repr

/-! ### The recall unit (chapter 6) -/

/-- An entry of the recall queue (R108). -/
structure RecallEntry where
  record  : Nat
  started : Bool
deriving DecidableEq, Repr

/-- The recall unit (R108). -/
structure RecallUnit where
  queue : List RecallEntry
  marks : PerPort Half
deriving DecidableEq, Repr

/-! ### The fibre link controller (chapter 7) -/

/-- The link grade (R87), in the order of R137. -/
inductive Grade where
  | full
  | half
deriving DecidableEq, Repr

/-- The tallies of the window in progress (R124). -/
structure Window where
  valid    : Nat
  failures : Nat
deriving DecidableEq, Repr

/-- The fibre link controller (R122) and its setting (R137). Whether light is present is not held: it is absent exactly
in DOWN (R123). -/
structure Link where
  state     : LinkState
  goodRun   : Nat
  badRun    : Nat
  window    : Option Window
  recovery  : Option Nat
  grade     : Grade
  /-- 1, 2, 4, 6 bad windows, by position. -/
  faultCode : Fin 4
deriving DecidableEq, Repr

/-! ### Request handling (chapter 8) -/

/-- Answer statuses (R141), in the order of their codes (R174). -/
inductive Status where
  | none
  | done
  | retry
  | refused
  | late
deriving DecidableEq, Repr

/-- Refusal reasons (R141), in the order of their codes, which begin at 1 (R174). -/
inductive Reason where
  | noSuchRecord
  | noSuchField
  | wrongMaster
  | notFound
  | portTripped
  | portsActive
  | readOnly
  | badValue
deriving DecidableEq, Repr

/-- An answer record's content (R141, R174). -/
structure Answer where
  kind   : Byte
  ref    : Half
  status : Status
  reason : Option Reason
  value  : List Byte
deriving DecidableEq, Repr

/-- A line transfer in progress (R139): the answer it shifts out, and whether the buffer still holds that answer. -/
structure Transfer where
  answer   : Answer
  inBuffer : Bool
deriving DecidableEq, Repr

/-- A held lock entry (R149): its holder and the microseconds left on its timer. -/
structure Lock where
  holder    : Master
  remaining : Nat
deriving DecidableEq, Repr

/-- Request handling (R134, R139, R149). -/
structure Requests where
  lineBuffer    : Option Answer
  transfer      : Option Transfer
  /-- MODEL'S OWN: the answer bytes the latest line transfer shifted out (log entry 17). -/
  shiftedOut    : List Byte
  officeAnswers : List Answer
  /-- The lock table: one entry per lockable record, numbered as the records are (R175); `none` is holder NONE. -/
  locks         : Vector (Option Lock) 13
deriving DecidableEq, Repr

/-! ### The event unit (chapter 9) -/

/-- The global event flags, in the order of their bits (R172). -/
inductive GlobalEvent where
  | linkUp
  | linkDown
  | linkHalted
  | lineSilent
  | shotOverflow
  | verdictLate
  | answerLost
  | officeReqDropped
  | storeEcc
  | storeFlushed
deriving DecidableEq, Repr

/-- The per-port event flags, in the order of their bits (R172). -/
inductive PortEvent where
  | trip
  | throttleTimeout
  | warmupTimeout
  | dark
  | laneError
  | storeRefused
  | triggerMissed
deriving DecidableEq, Repr

/-- A set of the 66 event flags, in the bit layout of R172: bit i of `global` is the i-th global flag. -/
structure FlagSet where
  global : BitVec 10
  ports  : PerPort (BitVec 7)
deriving DecidableEq, Repr

/-- The set with no flag. -/
def FlagSet.empty : FlagSet := { global := 0, ports := .all 0 }

/-- The per-port counts of section 9.6, in the order of its table. -/
inductive PortCount where
  | framesOpened
  | framesCompleted
  | framesDamaged
  | discardedPolicy
  | discardedState
  | refused
  | oversize
  | heldThrottle
  | queueFull
  | promoteFailed
  | overrunLines
  | stray
  | triggersMissed
  | cellsLive
  | freeRun
deriving DecidableEq, Repr

/-- The global counts of section 9.6, in the order of its table. -/
inductive GlobalCount where
  | cellsRecall
  | corrected
  | uncorrectable
  | evictions
  | shotOverflows
  | verdictsLate
  | linkRecovered
  | officeAnswersLost
deriving DecidableEq, Repr

/-- The event unit (R157, R160, R163, R165). The ATTN output is not held: it follows from the flags and MASK_LINE
(R162; Machine/Flags.lean: State.attnLow). -/
structure Events where
  flags        : FlagSet
  maskLine     : FlagSet
  maskOffice   : FlagSet
  noticePending : FlagSet
  portCounts   : PerPort (Vector Word 15)
  globalCounts : Vector Word 8
deriving DecidableEq, Repr

/-! ### The whole device -/

/-- The state of the SZL-8. -/
structure State where
  cams    : PerPort CameraPort
  sups    : PerPort Supervisor
  dark    : DarkDetector
  shots   : ShotTable
  store   : Store
  uplink  : Uplink
  recalls : RecallUnit
  link    : Link
  reqs    : Requests
  events  : Events
  /-- MODEL'S OWN: how many trigger pulses have been driven on each CTRGk (log entry 17). -/
  ctrg    : PerPort Nat
  /-- MODEL'S OWN: how many free values have been drawn. -/
  draws   : Nat
  /-- The commands that are waiting, first in, first out. -/
  pending : List Instr
deriving DecidableEq, Repr

/-! ### Reset -/

/-- The number of pages MEMSZ selects (R41). -/
def pagesOf : Level3 → Nat
  | .low => 16384
  | .floating => 32768
  | .high => 65536

/-- The grade GRADE selects (R87). -/
def gradeOf : Level2 → Grade
  | .low => .half
  | .high => .full

/-- The enable field, target and surplus use PSTART gives every camera port (R82), and whether its dark mask is full. -/
def portEnabledAtReset (p : Level3) : Bool := p ≠ .low

/-- The target a camera channel takes at reset (R82). -/
def targetAtReset (p : Level3) (g : Grade) : Nat :=
  match p, g with
  | .low, _ => 0
  | _, .full => 288
  | _, .half => 144

/-- A camera port after power-on reset (R1, R19). -/
def CameraPort.reset : CameraPort :=
  { receive := .idle, current := none, expected := 0, linesReceived := 0, bytesAccepted := 0, staging := []
    written := 0, completion := [], nextFrame := 0, lastFlags := 0, policy := .send }

/-- A supervisor after power-on reset (R65, R81, R82). -/
def Supervisor.reset (p : Level3) : Supervisor :=
  { state := if portEnabledAtReset p then .run else .disabled
    loadBytes := 0, lastLoad := 0, blanking := 0, overCount := 0, tripDue := false, calmCount := 0
    decimationCount := 0, throttleExit := .none, throttleTimer := none, warmupCompletions := 0, warmupTimer := none
    warmupArmed := false, warmupLength := 0, threshold := 0, tripMode := .report, deglitch := 1
    throttleTimeout := 1, decimation := 1 }

/-- A camera channel after power-on reset (R88, R82). -/
def Channel.resetCamera (p : Level3) (g : Grade) : Channel :=
  { target := targetAtReset p g, startRate := targetAtReset p g, ceiling := 256, slewCode := 3, window := 32
    asymmetric := false, surplus := p = .high, rate := targetAtReset p g, credit := 0, countdown := 4
    stepDue := false, current := none }

/-- Channel 8 after power-on reset (R88). -/
def Channel.resetRecall : Channel :=
  { target := 144, startRate := 144, ceiling := 64, slewCode := 0, window := 32, asymmetric := false, surplus := true
    rate := 144, credit := 0, countdown := 0, stepDue := false, current := none }

/-- The dark-port detector at the end of power-on reset: IDLE, or at the first visit of the pass that a mask that is not
empty starts (R83, R84, R86). All ports are then in RUN, so port 0 is under test for the 400 ms of the reset field. -/
def DarkDetector.reset (p : Level3) : DarkDetector :=
  if portEnabledAtReset p then
    { pass := .testing, current := 0, timer := some (400 * Config.usPerMs), mask := 0xFF, testTime := 3 }
  else
    { pass := .idle, current := 0, timer := none, mask := 0, testTime := 3 }

/-- The shot table after power-on reset (R20, R22, R38). -/
def ShotTable.reset (lwd : Level2) : ShotTable :=
  { shots := [], next := 0, window := [], slots := .all none
    watchdog := match lwd with | .low => none | .high => some (8000 * Config.usPerMs)
    lineState := .attended, deadline := 500, defaultVerdict := .pass, pinMasks := Vector.replicate 4 0
    triggerDelay := .all 0, watchdogPeriod := match lwd with | .low => 0 | .high => 3 }

/-- The frame store after power-on reset (R59, R64): INITIALIZING, with every record free and every page free. -/
def Store.reset (m : Level3) : Store :=
  { phase := .initializing, memSize := m, evictSent := true, freePages := ascending 0 (pagesOf m)
    freeRecords := ascending 0 Config.recordCount, ageList := [], lookup := [], catalogue := [], mem := []
    health := [] }

/-- The uplink scheduler after power-on reset (R88, R97, R99). -/
def Uplink.reset (p : Level3) (g : Grade) : Uplink :=
  { chans := (Vector.replicate 9 (Channel.resetCamera p g)).set 8 Channel.resetRecall
    live := .all [], lastCredit := 8, lastSurplus := 8, sent := none }

/-- The link controller after power-on reset (R122, R136, R137). -/
def Link.reset (g : Grade) (light : Bool) : Link :=
  { state := if light then .aligning else .down, goodRun := 0, badRun := 0
    window := if light then some { valid := 0, failures := 0 } else none
    recovery := none, grade := g, faultCode := 1 }

/-- Request handling after power-on reset (R134, R139, R149). R139 gives the answer buffer's reset value alone: a line transfer
under way is dropped, so that a release of chip select after the reset is the end of a transfer of its own (DESIGN CHOICE:
log entry 8). -/
def Requests.reset : Requests :=
  { lineBuffer := none, transfer := none, shiftedOut := [], officeAnswers := [], locks := Vector.replicate 13 none }

/-- The event unit after power-on reset (R157, R160, R163, R165): LINK_UP alone is masked in MASK_LINE. -/
def Events.reset : Events :=
  { flags := .empty, maskLine := { FlagSet.empty with global := 1 }, maskOffice := .empty, noticePending := .empty
    portCounts := .all (Vector.replicate 15 0), globalCounts := Vector.replicate 8 0 }

/-- The machine after a power-on reset that samples these straps and finds light on the return lane or none. -/
def State.powerOn (straps : Straps) (light : Bool) : State :=
  { cams := .all .reset
    sups := .all (.reset straps.pstart)
    dark := .reset straps.pstart
    shots := .reset straps.lwd
    store := .reset straps.memsz
    uplink := .reset straps.pstart (gradeOf straps.grade)
    recalls := { queue := [], marks := .all 0 }
    link := .reset (gradeOf straps.grade) light
    reqs := .reset
    events := .reset
    ctrg := .all 0
    draws := 0
    pending := [] }

/-- The straps of State.reset: every strap low (DESIGN CHOICE, log entry 1). -/
def allLow : Straps := { grade := .low, memsz := .low, lwd := .low, pstart := .low }

/-- The machine right after power-on reset, with every strap low and no light on the return lane (log entry 1). -/
def State.reset : State := .powerOn allLow false

end Sys2Proof.Machine
end

