-- ==== Sys2Proof/Machine/Ops.lean ====
section
/-! DEFINITION. The operations every block shares: sparse tables, access to one port's, channel's or record's state,
timers, port masks, and the numbers the settings positions stand for. -/

namespace Sys2Proof.Machine

/-! ### Sparse tables -/

/-- What a table holds at a key; `d` is what an unlisted key reads as. -/
def Table.get {α : Type} (d : α) : Table α → Nat → α
  | [], _ => d
  | (a, x) :: t, k => if k < a then d else if k = a then x else Table.get d t k

/-- Store `v` at key `k`: the pair takes its place in key order, and a value equal to `d` is held by no pair. -/
def Table.set {α : Type} [DecidableEq α] (d : α) : Table α → Nat → α → Table α
  | [], k, v => if v = d then [] else [(k, v)]
  | (a, x) :: t, k, v =>
    if k < a then (if v = d then (a, x) :: t else (k, v) :: (a, x) :: t)
    else if k = a then (if v = d then t else (k, v) :: t)
    else (a, x) :: Table.set d t k v

/-- Apply `f` to every listed value. -/
def Table.mapValues {α : Type} [DecidableEq α] (d : α) (f : α → α) (t : Table α) : Table α :=
  List.filter (fun p => p.2 ≠ d) (List.map (fun p => (p.1, f p.2)) t)

/-- The one form a table has: keys strictly rising, and no pair holding what an unlisted key reads as. -/
abbrev Table.wf {α : Type} (d : α) (t : Table α) : Prop :=
  t.Pairwise (fun p q => p.1 < q.1) ∧ ∀ p ∈ t, p.2 ≠ d

/-- Frame memory in its one canonical form: addresses strictly rising, no byte listed that reads as zero. -/
abbrev Memory.wf (mem : List Host.Cell) : Prop := Table.wf (0 : Byte) mem

/-! ### Ports and channels -/

/-- The eight camera ports, ascending. -/
def allPorts : List Port := [0, 1, 2, 3, 4, 5, 6, 7]

/-- Do something for each port in turn, from port 0 upward. -/
def eachPort (f : Port → State → State) (s : State) : State := allPorts.foldl (fun t k => f k t) s

/-- The channel of a camera port: the channel of the same number. -/
def chanOf (k : Port) : Chan := k.castSucc

/-- The channel of recalls. -/
def recallChan : Chan := 8

/-- The port of a camera channel; none for channel 8. -/
def portOf (c : Chan) : Option Port := if h : c.val < 8 then some ⟨c.val, h⟩ else none

/-- The port a request's port byte names; none outside 0–7 (R174 step 4). -/
def portOfByte (b : Byte) : Option Port := if h : b.toNat < 8 then some ⟨b.toNat, h⟩ else none

/-- "Port k in the mask": the member for port k is set (R172). -/
def inMask (mask : BitVec 8) (k : Port) : Bool := mask.getLsbD k

/-- The mask of one port. -/
def portBit (k : Port) : BitVec 8 := 1 <<< k.val

/-! ### Parts of the state -/

def State.cam (s : State) (k : Port) : CameraPort := s.cams[k]

def State.modCam (s : State) (k : Port) (f : CameraPort → CameraPort) : State :=
  { s with cams := s.cams.set k (f s.cams[k]) }

def State.sup (s : State) (k : Port) : Supervisor := s.sups[k]

def State.modSup (s : State) (k : Port) (f : Supervisor → Supervisor) : State :=
  { s with sups := s.sups.set k (f s.sups[k]) }

def State.chan (s : State) (c : Chan) : Channel := s.uplink.chans[c]

def State.modChan (s : State) (c : Chan) (f : Channel → Channel) : State :=
  { s with uplink := { s.uplink with chans := s.uplink.chans.set c (f s.uplink.chans[c]) } }

def State.liveQueue (s : State) (k : Port) : List Nat := s.uplink.live[k]

def State.setLive (s : State) (k : Port) (q : List Nat) : State :=
  { s with uplink := { s.uplink with live := s.uplink.live.set k q } }

def State.slot (s : State) (k : Port) : Option TriggerSlot := s.shots.slots[k]

def State.setSlot (s : State) (k : Port) (t : Option TriggerSlot) : State :=
  { s with shots := { s.shots with slots := s.shots.slots.set k t } }

def State.lock (s : State) (l : Fin 13) : Option Lock := s.reqs.locks[l]

def State.setLock (s : State) (l : Fin 13) (e : Option Lock) : State :=
  { s with reqs := { s.reqs with locks := s.reqs.locks.set l e } }

/-- Catalogue record `n` as it stands (R44). -/
def State.record (s : State) (n : Nat) : FrameRecord := Table.get .blank s.store.catalogue n

def State.setRecord (s : State) (n : Nat) (r : FrameRecord) : State :=
  { s with store := { s.store with catalogue := Table.set .blank s.store.catalogue n r } }

def State.modRecord (s : State) (n : Nat) (f : FrameRecord → FrameRecord) : State :=
  s.setRecord n (f (s.record n))

/-! ### Timers -/

/-- One microsecond off a running timer; a timer whose time has run out stays there until its expiry is taken. -/
def tickTimer (t : Option Nat) : Option Nat := t.map (· - 1)

/-- A running timer has run out. An expiry's command acts only then: a timer started again meanwhile does not expire at its
old time (R79, R154; log entry 3). -/
def ranOut (t : Option Nat) : Bool := t = some 0

/-- Whole milliseconds, rounded up, of a time in microseconds (R32, R137, R156). -/
def ceilMs (us : Nat) : Nat := (us + 999) / 1000

/-- The whole milliseconds left on a timer, rounded up; 0 while it is stopped (R137, R156). -/
def timerMs (t : Option Nat) : Nat :=
  match t with
  | none => 0
  | some us => ceilMs us

/-! ### What the positions of the settings stand for -/

/-- Warm-up length in microseconds: 20 or 40 ms (R81). -/
def warmupTime (c : Fin 2) : Nat := (if c = 0 then 20 else 40) * Config.usPerMs

/-- Deglitch count: 1, 2, 4 or 8 rounds (R81). -/
def deglitchRounds (c : Fin 4) : Nat := 2 ^ c.val

/-- Throttle timeout in microseconds: 100, 200, 400 or 800 ms (R81). -/
def throttleTime (c : Fin 4) : Nat := 100 * 2 ^ c.val * Config.usPerMs

/-- Decimation: keep one of 2, 4, 8 or 16 (R81). -/
def decimationOf (c : Fin 4) : Nat := 2 ^ (c.val + 1)

/-- Dark test time in microseconds: 50, 100, 200 or 400 ms (R86). -/
def darkTestTime (c : Fin 4) : Nat := 50 * 2 ^ c.val * Config.usPerMs

/-- Fault count: 1, 2, 4 or 6 consecutive bad windows (R126, R137). -/
def faultCount (c : Fin 4) : Nat :=
  match c with
  | 0 => 1
  | 1 => 2
  | 2 => 4
  | 3 => 6

/-- Line watchdog period in microseconds; none for OFF (R22). -/
def watchdogTime (c : Fin 4) : Option Nat :=
  match c with
  | 0 => none
  | 1 => some (1000 * Config.usPerMs)
  | 2 => some (2000 * Config.usPerMs)
  | 3 => some (8000 * Config.usPerMs)

/-- Step period of a slew code in rounds: 1, 2, 4, …, 64 for codes 1 to 7 (R88); 0 for code 0, which has none. -/
def slewPeriod (c : Fin 8) : Nat := if c = 0 then 0 else 2 ^ (c.val - 1)

/-- The grade maximum: 16 units for each data slot of a round (R87). -/
def gradeMaximum (g : Grade) : Nat :=
  match g with
  | .full => 2336
  | .half => 1168

/-- Frame memory size in GiB (R41). -/
def memoryGiB (m : Level3) : Nat :=
  match m with
  | .low => 1
  | .floating => 2
  | .high => 4

/-! ### Serial numbers -/

/-- The serial distance from `a` to `b` (R114). -/
def serialDistance (a b : Half) : Nat := (b - a).toNat

/-- `b` is behind `a` when the distance from `a` to `b` is 32,768 or more (R114). -/
def behind (b a : Half) : Bool := 32768 ≤ serialDistance a b

/-- A frame number is covered by a mark when the mark is at or after it (R114). -/
def coveredBy (n mark : Half) : Bool := serialDistance n mark < 32768

/-- The last issued frame number of a port: the next frame number less 1, modulo 65,536 (R5). -/
def CameraPort.lastIssued (c : CameraPort) : Half := c.nextFrame - 1

end Sys2Proof.Machine
end

