-- ==== Sys2Proof/Machine/Operands.lean ====
section
/-! DEFINITION. The operands of settings requests: records and fields by number (R143, R175), settings and status fields
apart (R144), and the numbers that enumerations travel as (R176). -/

namespace Sys2Proof.Machine

/-- The settings of CH0 to CH7 alone (R175). -/
inductive PortSetting where
  | enable
  | warmupArmed
  | warmupLength
  | tripThreshold
  | tripMode
  | deglitch
  | throttleTimeout
  | decimation
  | damagedPolicy
  | triggerDelay
deriving DecidableEq, Repr

/-- The status fields of CH0 to CH7 alone (R175). -/
inductive PortStatus where
  | supervisionState
  | lastLoad
  | overCount
  | calmCount
  | decimationCount
  | blankingRemaining
  | receiveState
  | stagedLines
  | lastFrameFlags
  | lastFrameNumber
  | receiptMark
deriving DecidableEq, Repr

/-- The settings of CH0 to CH8 (R175). -/
inductive ChanSetting where
  | target
  | startRate
  | ceiling
  | slewCode
  | window
  | asymmetric
  | surplusEnable
deriving DecidableEq, Repr

/-- The status fields of CH0 to CH8 (R175). -/
inductive ChanStatus where
  | rate
  | credit
  | slewCountdown
  | queueLength
  | currentFrame
  | cellsSent
deriving DecidableEq, Repr

/-- A field that is a setting (R144). `mask whose f`: field 0 is global, field k+1 is port k (R160). -/
inductive Setting where
  | port (k : Port) (f : PortSetting)
  | chan (c : Chan) (f : ChanSetting)
  | evictSent
  | deadline
  | defaultVerdict
  | pinMask (n : Fin 4)
  | faultCode
  | lineWatchdog
  | darkMask
  | darkTestTime
  | mask (whose : Master) (f : Fin 9)
deriving DecidableEq, Repr

/-- A field that is status: read only (R144). -/
inductive StatusField where
  | port (k : Port) (f : PortStatus)
  | chan (c : Chan) (f : ChanStatus)
  | storeState
  | memorySize
  | pages
  | freePages
  | freeRecords
  | heldRecords
  | evictableRecords
  | openShots
  | nextShotNumber
  | linkState
  | grade
  | goodRun
  | badRun
  | recoveryRemaining
  | queuedAnswers
  | light
  | lineState
  | darkPassState
  | darkCurrentPort
  | lockHolder (l : Fin 13)
  | lockRemaining (l : Fin 13)
deriving DecidableEq, Repr

/-- A field of a settings record. -/
inductive FieldRef where
  | setting (x : Setting)
  | status (x : StatusField)
deriving DecidableEq, Repr

/-- The lockable record of a record number: CH0 to CH8, STORE, SHOTS, LINK and MONITOR, 00H to 0CH (R143, R175). -/
def lockableRecord (record : Byte) : Option (Fin 13) :=
  if h : record.toNat < 13 then some ⟨record.toNat, h⟩ else none

/-- The mask record of a record number, by the master it serves: 0DH MASK_LINE, 0EH MASK_OFFICE (R147, R175). -/
def maskRecord (record : Byte) : Option Master :=
  match record.toNat with
  | 0x0D => some .line
  | 0x0E => some .office
  | _ => none

/-- The camera-port settings by field number (R175). -/
def portSettingOf (field : Nat) : Option PortSetting :=
  match field with
  | 0x01 => some .enable
  | 0x02 => some .warmupArmed
  | 0x03 => some .warmupLength
  | 0x04 => some .tripThreshold
  | 0x05 => some .tripMode
  | 0x06 => some .deglitch
  | 0x07 => some .throttleTimeout
  | 0x08 => some .decimation
  | 0x09 => some .damagedPolicy
  | 0x0A => some .triggerDelay
  | _ => none

/-- The camera-port status fields by field number (R175). -/
def portStatusOf (field : Nat) : Option PortStatus :=
  match field with
  | 0x20 => some .supervisionState
  | 0x21 => some .lastLoad
  | 0x22 => some .overCount
  | 0x23 => some .calmCount
  | 0x24 => some .decimationCount
  | 0x25 => some .blankingRemaining
  | 0x26 => some .receiveState
  | 0x27 => some .stagedLines
  | 0x28 => some .lastFrameFlags
  | 0x29 => some .lastFrameNumber
  | 0x2A => some .receiptMark
  | _ => none

/-- The channel settings by field number (R175). -/
def chanSettingOf (field : Nat) : Option ChanSetting :=
  match field with
  | 0x10 => some .target
  | 0x11 => some .startRate
  | 0x12 => some .ceiling
  | 0x13 => some .slewCode
  | 0x14 => some .window
  | 0x15 => some .asymmetric
  | 0x16 => some .surplusEnable
  | _ => none

/-- The channel status fields by field number (R175). -/
def chanStatusOf (field : Nat) : Option ChanStatus :=
  match field with
  | 0x30 => some .rate
  | 0x31 => some .credit
  | 0x32 => some .slewCountdown
  | 0x33 => some .queueLength
  | 0x34 => some .currentFrame
  | 0x35 => some .cellsSent
  | _ => none

/-- The fields of a channel record: those of CH0 to CH8, and for CH0 to CH7 those of the camera port (R144, R175). -/
def chanFieldOf (c : Chan) (field : Nat) : Option FieldRef :=
  match chanSettingOf field, chanStatusOf field, portOf c with
  | some f, _, _ => some (.setting (.chan c f))
  | none, some f, _ => some (.status (.chan c f))
  | none, none, none => none
  | none, none, some k =>
    match portSettingOf field, portStatusOf field with
    | some f, _ => some (.setting (.port k f))
    | none, some f => some (.status (.port k f))
    | none, none => none

/-- The fields of STORE (R175). -/
def storeFieldOf (field : Nat) : Option FieldRef :=
  match field with
  | 0x01 => some (.setting .evictSent)
  | 0x20 => some (.status .storeState)
  | 0x21 => some (.status .memorySize)
  | 0x22 => some (.status .pages)
  | 0x23 => some (.status .freePages)
  | 0x24 => some (.status .freeRecords)
  | 0x25 => some (.status .heldRecords)
  | 0x26 => some (.status .evictableRecords)
  | _ => none

/-- The fields of SHOTS (R175). -/
def shotsFieldOf (field : Nat) : Option FieldRef :=
  match field with
  | 0x01 => some (.setting .deadline)
  | 0x02 => some (.setting .defaultVerdict)
  | 0x03 => some (.setting (.pinMask 0))
  | 0x04 => some (.setting (.pinMask 1))
  | 0x05 => some (.setting (.pinMask 2))
  | 0x06 => some (.setting (.pinMask 3))
  | 0x20 => some (.status .openShots)
  | 0x21 => some (.status .nextShotNumber)
  | _ => none

/-- The fields of LINK (R175). -/
def linkFieldOf (field : Nat) : Option FieldRef :=
  match field with
  | 0x01 => some (.setting .faultCode)
  | 0x20 => some (.status .linkState)
  | 0x21 => some (.status .grade)
  | 0x22 => some (.status .goodRun)
  | 0x23 => some (.status .badRun)
  | 0x24 => some (.status .recoveryRemaining)
  | 0x25 => some (.status .queuedAnswers)
  | 0x26 => some (.status .light)
  | _ => none

/-- The fields of MONITOR (R175). -/
def monitorFieldOf (field : Nat) : Option FieldRef :=
  match field with
  | 0x01 => some (.setting .lineWatchdog)
  | 0x02 => some (.setting .darkMask)
  | 0x03 => some (.setting .darkTestTime)
  | 0x20 => some (.status .lineState)
  | 0x21 => some (.status .darkPassState)
  | 0x22 => some (.status .darkCurrentPort)
  | _ => none

/-- The fields of a mask record: 01H global, 02H to 09H port 0 to port 7 (R175). -/
def maskFieldOf (whose : Master) (field : Nat) : Option FieldRef :=
  if h : 1 ≤ field ∧ field ≤ 9 then some (.setting (.mask whose ⟨field - 1, by omega⟩)) else none

/-- The lock status fields of a lockable record: 3EH lock holder, 3FH lock remaining (R156, R175). -/
def lockFieldOf (l : Fin 13) (field : Nat) : Option FieldRef :=
  match field with
  | 0x3E => some (.status (.lockHolder l))
  | 0x3F => some (.status (.lockRemaining l))
  | _ => none

/-- The fields of a lockable record apart from its lock status (R175). -/
def lockableFieldOf (l : Fin 13) (field : Nat) : Option FieldRef :=
  if h : l.val < 9 then chanFieldOf ⟨l.val, h⟩ field
  else match l.val with
    | 9 => storeFieldOf field
    | 10 => shotsFieldOf field
    | 11 => linkFieldOf field
    | _ => monitorFieldOf field

/-- The field a request names by record and field number, or the reason it is refused: NO_SUCH_RECORD first, then
NO_SUCH_FIELD (R145, R146). -/
def resolveField (record field : Byte) : Except Reason FieldRef :=
  match lockableRecord record, maskRecord record with
  | some l, _ =>
    match lockFieldOf l field.toNat, lockableFieldOf l field.toNat with
    | some f, _ => .ok f
    | none, some f => .ok f
    | none, none => .error .noSuchField
  | none, some m =>
    match maskFieldOf m field.toNat with
    | some f => .ok f
    | none => .error .noSuchField
  | none, none => .error .noSuchRecord

/-! ### Numbers that enumerations travel as: positions in their defining table, the first 0 (R176) -/

/-- ON is 0 and OFF is 1, as the tables of R64 and R88 list them. -/
def onOffCode (b : Bool) : Nat := if b then 0 else 1

/-- The field values 0 and 1 of enable and warm-up armed (R81). -/
def bitCode (b : Bool) : Nat := if b then 1 else 0

def DamagedPolicy.code : DamagedPolicy → Nat
  | .send => 0
  | .hold => 1
  | .discard => 2

def DamagedPolicy.ofCode : Nat → DamagedPolicy
  | 0 => .send
  | 1 => .hold
  | _ => .discard

def TripMode.code : TripMode → Nat
  | .report => 0
  | .latch => 1
  | .throttle => 2
  | .throttleOff => 3
  | .throttleRelease => 4

def TripMode.ofCode : Nat → TripMode
  | 0 => .report
  | 1 => .latch
  | 2 => .throttle
  | 3 => .throttleOff
  | _ => .throttleRelease

def Verdict.code : Verdict → Nat
  | .pass => 0
  | .reject => 1
  | .review => 2

def Verdict.ofCode : Nat → Verdict
  | 0 => .pass
  | 1 => .reject
  | _ => .review

def SupState.code : SupState → Nat
  | .disabled => 0
  | .warmup => 1
  | .run => 2
  | .throttled => 3
  | .unguarded => 4
  | .tripped => 5

def ReceiveState.code : ReceiveState → Nat
  | .idle => 0
  | .assembling => 1
  | .skipping => 2

def PassState.code : PassState → Nat
  | .idle => 0
  | .waiting => 1
  | .testing => 2

def LineState.code : LineState → Nat
  | .attended => 0
  | .silent => 1

def StorePhase.code : StorePhase → Nat
  | .initializing => 0
  | .ready => 1

/-- Link states as the cell header codes them (R168), which is also their order in R137. -/
def LinkState.code : LinkState → Nat
  | .down => 0
  | .aligning => 1
  | .up => 2
  | .recovering => 3
  | .halted => 4

def Grade.code : Grade → Nat
  | .full => 0
  | .half => 1

/-- NONE, LINE, OFFICE (R156). -/
def holderCode (h : Option Lock) : Nat :=
  match h with
  | none => 0
  | some l => match l.holder with
    | .line => 1
    | .office => 2

/-- Record states as QUERY_FRAME codes them: FILLING to HELD as 0 to 5 (R174). A free record is reached by no request. -/
def RecState.code : RecState → Nat
  | .free => 0
  | .filling => 0
  | .queued => 1
  | .sending => 2
  | .sent => 3
  | .delivered => 4
  | .held => 5

/-- Shot origins: 0 REQUEST, 1 to 4 PIN0 to PIN3 (R174). -/
def Origin.code : Origin → Nat
  | .request => 0
  | .pin n => n.val + 1

/-- A value narrower than its field fills the field's low-order end (R167). -/
def byteOf (n : Nat) : Byte := BitVec.ofNat 8 n

def halfOf (n : Nat) : Half := BitVec.ofNat 16 n

def wordOf (n : Nat) : Word := BitVec.ofNat 32 n

/-- The number of values of an enumeration setting; none for a numeric or set one (R176). -/
def Setting.enumSize : Setting → Option Nat
  | .port _ .enable => some 2
  | .port _ .warmupArmed => some 2
  | .port _ .warmupLength => some 2
  | .port _ .tripThreshold => none
  | .port _ .tripMode => some 5
  | .port _ .deglitch => some 4
  | .port _ .throttleTimeout => some 4
  | .port _ .decimation => some 4
  | .port _ .damagedPolicy => some 3
  | .port _ .triggerDelay => none
  | .chan _ .target => none
  | .chan _ .startRate => none
  | .chan _ .ceiling => none
  | .chan _ .slewCode => some 8
  | .chan _ .window => none
  | .chan _ .asymmetric => some 2
  | .chan _ .surplusEnable => some 2
  | .evictSent => some 2
  | .deadline => none
  | .defaultVerdict => some 3
  | .pinMask _ => none
  | .faultCode => some 4
  | .lineWatchdog => some 4
  | .darkMask => none
  | .darkTestTime => some 4
  | .mask _ _ => none

/-- Whether a written value lies outside the set of an enumeration setting (R146 step 6, R176). -/
def Setting.badValue (x : Setting) (v : Word) : Bool :=
  match x.enumSize with
  | none => false
  | some n => n ≤ v.toNat

end Sys2Proof.Machine
end

