-- ==== Sys2Proof/Machine/Flags.lean ====
section
/-! DEFINITION. Lane flags, event flags, ATTN, the notice-pending set and the counts (sections 1.8, 9.1 to 9.6, R172). -/

namespace Sys2Proof.Machine

/-! ### Lane flags -/

/-- The bit of a lane flag (R172). -/
def LaneFlag.bit : LaneFlag → Nat
  | .sequence => 0
  | .check => 1
  | .length => 2
  | .count => 3
  | .overrun => 4
  | .truncated => 5
  | .storeFull => 6

/-- The set of one lane flag. -/
def LaneFlag.only (f : LaneFlag) : LaneFlags := 1 <<< f.bit

/-- Whether a record is damaged: it carries any lane flag (section 1.8). -/
def FrameRecord.damaged (r : FrameRecord) : Bool := r.flags ≠ 0

/-- The record takes a lane flag. -/
def FrameRecord.flag (r : FrameRecord) (f : LaneFlag) : FrameRecord := { r with flags := r.flags ||| f.only }

/-- The record takes a lane flag if the test behind it failed. -/
def FrameRecord.flagIf (r : FrameRecord) (c : Bool) (f : LaneFlag) : FrameRecord := if c then r.flag f else r

/-! ### Event flags -/

/-- An event flag: global, or per port (section 9.1). -/
inductive Event where
  | global (g : GlobalEvent)
  | port (p : PortEvent) (k : Port)
deriving DecidableEq, Repr

/-- The bit of a global event flag (R172). -/
def GlobalEvent.bit : GlobalEvent → Nat
  | .linkUp => 0
  | .linkDown => 1
  | .linkHalted => 2
  | .lineSilent => 3
  | .shotOverflow => 4
  | .verdictLate => 5
  | .answerLost => 6
  | .officeReqDropped => 7
  | .storeEcc => 8
  | .storeFlushed => 9

/-- The bit of a per-port event flag (R172). -/
def PortEvent.bit : PortEvent → Nat
  | .trip => 0
  | .throttleTimeout => 1
  | .warmupTimeout => 2
  | .dark => 3
  | .laneError => 4
  | .storeRefused => 5
  | .triggerMissed => 6

/-- Whether a flag is in a set. -/
def FlagSet.has (f : FlagSet) : Event → Bool
  | .global g => f.global.getLsbD g.bit
  | .port p k => f.ports[k].getLsbD p.bit

/-- The set with one more flag. -/
def FlagSet.insert (f : FlagSet) : Event → FlagSet
  | .global g => { f with global := f.global ||| (1 <<< g.bit) }
  | .port p k => { f with ports := f.ports.set k (f.ports[k] ||| (1 <<< p.bit)) }

/-- The flags of `f` that are not in `g`. -/
def FlagSet.without (f g : FlagSet) : FlagSet :=
  { global := f.global &&& ~~~g.global, ports := Vector.ofFn fun k : Port => f.ports[k] &&& ~~~g.ports[k] }

/-- Whether the set holds any flag. -/
def FlagSet.nonempty (f : FlagSet) : Bool := f.global ≠ 0 || allPorts.any fun k => f.ports[k] ≠ 0

/-- The two bytes of the global flags (R172). -/
def FlagSet.globalBytes (f : FlagSet) : List Byte :=
  [f.global.extractLsb' 0 8, (f.global.extractLsb' 8 2).setWidth 8]

/-- The byte of a port's flags (R172). -/
def FlagSet.portByte (f : FlagSet) (k : Port) : Byte := f.ports[k].setWidth 8

/-- The ten bytes of the event flag layout (R172). -/
def FlagSet.bytes (f : FlagSet) : List Byte := f.globalBytes ++ allPorts.map f.portByte

/-- The set that bytes in the event flag layout name; bits that name no flag are dropped (R144, R159, R172). -/
def FlagSet.ofBytes (bytes : List Byte) : FlagSet :=
  { global := (byteAt bytes 1 ++ byteAt bytes 0).setWidth 10
    ports := Vector.ofFn fun k : Port => (byteAt bytes (2 + k.val)).setWidth 7 }

/-- The event unit at a setting event (R158): the flag becomes SET, and its kind joins the notice-pending set if it is
not masked in MASK_OFFICE as that stands. -/
def Events.raise (u : Events) (e : Event) : Events :=
  { u with
    flags := u.flags.insert e
    noticePending := if u.maskOffice.has e then u.noticePending else u.noticePending.insert e }

/-- A setting event of a global flag (R158). -/
def State.raise (s : State) (g : GlobalEvent) : State := { s with events := s.events.raise (.global g) }

/-- A setting event of a port's flag (R158). -/
def State.raisePort (s : State) (k : Port) (p : PortEvent) : State := { s with events := s.events.raise (.port p k) }

/-- ATTN is driven low while at least one event flag is SET and not masked in MASK_LINE (R162). -/
def State.attnLow (s : State) : Bool := (s.events.flags.without s.events.maskLine).nonempty

/-! ### Counts -/

/-- The place of a per-port count in the table of section 9.6. -/
def PortCount.idx : PortCount → Fin 15
  | .framesOpened => 0
  | .framesCompleted => 1
  | .framesDamaged => 2
  | .discardedPolicy => 3
  | .discardedState => 4
  | .refused => 5
  | .oversize => 6
  | .heldThrottle => 7
  | .queueFull => 8
  | .promoteFailed => 9
  | .overrunLines => 10
  | .stray => 11
  | .triggersMissed => 12
  | .cellsLive => 13
  | .freeRun => 14

/-- The place of a global count in the table of section 9.6. -/
def GlobalCount.idx : GlobalCount → Fin 8
  | .cellsRecall => 0
  | .corrected => 1
  | .uncorrectable => 2
  | .evictions => 3
  | .shotOverflows => 4
  | .verdictsLate => 5
  | .linkRecovered => 6
  | .officeAnswersLost => 7

/-- A port's count. -/
def State.portCount (s : State) (k : Port) (c : PortCount) : Word := s.events.portCounts[k][c.idx]

/-- A global count. -/
def State.globalCount (s : State) (c : GlobalCount) : Word := s.events.globalCounts[c.idx]

/-- A port's count rises by 1, wrapping at 32 bits (R165). -/
def State.count (s : State) (k : Port) (c : PortCount) : State :=
  { s with events :=
    { s.events with portCounts :=
      s.events.portCounts.set k (s.events.portCounts[k].set c.idx (s.events.portCounts[k][c.idx] + 1)) } }

/-- A global count rises by `n`, wrapping at 32 bits (R165). -/
def State.countGlobal (s : State) (c : GlobalCount) (n : Nat) : State :=
  { s with events :=
    { s.events with globalCounts :=
      s.events.globalCounts.set c.idx (s.events.globalCounts[c.idx] + BitVec.ofNat 32 n) } }

/-- A port's counts in the order of the table, four bytes each (R166, R174). -/
def State.portCountBytes (s : State) (k : Port) : List Byte := s.events.portCounts[k].toList.flatMap be32

/-- The global counts in the order of the table, four bytes each (R166, R174). -/
def State.globalCountBytes (s : State) : List Byte := s.events.globalCounts.toList.flatMap be32

end Sys2Proof.Machine
end

