-- ==== Sys2Proof/Machine/Store.lean ====
section
/-! DEFINITION. The frame store (chapter 3): the lookup map, freeing and eviction, page and record requests, frame
memory with its blocks' health. -/

namespace Sys2Proof.Machine

/-! ### The lookup map -/

/-- The key of (port, frame number) in the lookup map (R47). -/
def frameKey (k : Port) (n : Half) : Nat := 65536 * k.val + n.toNat

/-- The record a (port, frame number) names, as the map stands (R48). -/
def State.lookup (s : State) (k : Port) (n : Half) : Option Nat := Table.get none s.store.lookup (frameKey k n)

def State.setLookup (s : State) (k : Port) (n : Half) (e : Option Nat) : State :=
  { s with store := { s.store with lookup := Table.set none s.store.lookup (frameKey k n) e } }

/-- The record that a request's port byte and frame number name; none for a port outside 0–7 or a name that has no
entry (R48, R63, R109, R118, R119). -/
def State.named (s : State) (port : Byte) (frame : Half) : Option Nat :=
  match portOfByte port with
  | none => none
  | some k => s.lookup k frame

/-! ### Evictability and freeing -/

/-- A record's cell count: its bytes and the descriptor, in cells of 512 (R44). -/
def FrameRecord.cellCount (r : FrameRecord) : Nat := (r.byteLength + 32 + 511) / 512

/-- Whether a record carries none of the five retention marks (R50, R51). -/
def FrameRecord.unmarked (r : FrameRecord) : Bool :=
  !r.keep && !r.lineHold && !r.officeHold && !r.verdictPending && !r.recallPending

/-- Whether a record is evictable while evict sent stands so (R51). -/
def FrameRecord.evictable (r : FrameRecord) (evictSent : Bool) : Bool :=
  (r.state = .delivered || r.state = .held || (r.state = .sent && evictSent)) && r.unmarked

/-- What freeing does to a record's own fields: its chain becomes empty and its marks end with it; the rest stay as they
were left (R44, R53). -/
def FrameRecord.freed (r : FrameRecord) : FrameRecord :=
  { r with
    state := .free, chain := [], keep := false, lineHold := false, officeHold := false
    verdictPending := false, recallPending := false }

/-- Free a record (R53): its pages join the tail of the free page list in chain order, its map entry goes, it leaves the
age list and joins the tail of the free record list. -/
def freeRecord (n : Nat) (s : State) : State :=
  let r := s.record n
  let s := s.setLookup r.port r.frame none
  let s := s.setRecord n r.freed
  { s with
    store :=
      { s.store with
        freePages := s.store.freePages ++ r.chain
        ageList := s.store.ageList.filter (· ≠ n)
        freeRecords := s.store.freeRecords ++ [n] } }

/-- Evict a record: free it and raise EVICTIONS (R52). -/
def evict (n : Nat) (s : State) : State := (freeRecord n s).countGlobal .evictions 1

/-- The oldest evictable record in a state, by the age list. -/
def oldestEvictable (st : RecState) (s : State) : Option Nat :=
  s.store.ageList.find? fun n => (s.record n).state = st && (s.record n).evictable s.store.evictSent

/-- The eviction order (R52): the oldest evictable DELIVERED record, else HELD, else SENT while evict sent is ON. -/
def victim (s : State) : Option Nat :=
  (oldestEvictable .delivered s).or ((oldestEvictable .held s).or (oldestEvictable .sent s))

/-- Evict while the free page list is empty and an evictable record remains (R43 step 2); `fuel` bounds the records. -/
def evictForPage : Nat → State → State
  | 0, s => s
  | fuel + 1, s =>
    if s.store.freePages ≠ [] then s
    else match victim s with
      | none => s
      | some n => evictForPage fuel (evict n s)

/-- A page request taken whole (R43): the page handed out, or none when the request is refused. -/
def takePage (s : State) : Option Nat × State :=
  let s := evictForPage s.store.ageList.length s
  match s.store.freePages with
  | [] => (none, s)
  | p :: rest => (some p, { s with store := { s.store with freePages := rest } })

/-- Supply the head of the free record list, evicting one record first when the list is empty (R46 steps 2 to 4). -/
def supplyRecord (s : State) : Option Nat × State :=
  let s := if s.store.freeRecords ≠ [] then s else match victim s with
    | none => s
    | some n => evict n s
  match s.store.freeRecords with
  | [] => (none, s)
  | n :: rest => (some n, { s with store := { s.store with freeRecords := rest } })

/-- A record request for the frame number port `k` would issue next (R46), settling a record that already holds that key
first: evicted out of order if it is evictable, else the request is refused (R47). -/
def requestRecord (k : Port) (s : State) : Option Nat × State :=
  match s.lookup k (s.cam k).nextFrame with
  | none => supplyRecord s
  | some n =>
    if (s.record n).evictable s.store.evictSent then supplyRecord (evict n s) else (none, s)

/-! ### Frame memory -/

/-- The address of byte `b` of a frame with this page chain (R41). -/
def frameAddress (chain : List Nat) (b : Nat) : Nat :=
  chain.getD (b / Config.pageBytes) 0 * Config.pageBytes + b % Config.pageBytes

/-- A byte of frame memory; a byte nothing has written reads as zero, as initialization leaves it (R59). -/
def readByte (s : State) (a : Nat) : Byte := Table.get 0 s.store.mem a

/-- Store bytes at ascending addresses. -/
def writeMem (mem : List Host.Cell) (a : Nat) : List Byte → List Host.Cell
  | [] => mem
  | b :: rest => writeMem (Table.set 0 mem a b) (a + 1) rest

/-- The health of the block that holds an address (section 3.4). -/
def State.blockHealth (s : State) (block : Nat) : BlockHealth := Table.get .sound s.store.health block

/-- The bytes of a block in error as a draw gives them (log entry 12). -/
def drawnBytes (draw base : Nat) (count : Nat) : List Byte :=
  (ascending base count).map (Config.freeByte draw)

/-- Cover a block that is in error with a check code for the block as it stands (R54): the error is no longer seen, and
the bytes that stand in the block are not stated (free values, log entry 12). A sound block is left as it is. -/
def recoverBlock (block : Nat) (s : State) : State :=
  if s.blockHealth block = .sound then s
  else
    { s with
      draws := s.draws + 1
      store :=
        { s.store with
          mem := writeMem s.store.mem (block * Config.blockBytes)
                   (drawnBytes s.draws (block * Config.blockBytes) Config.blockBytes)
          health := Table.set .sound s.store.health block .sound } }

/-- The block numbers that bytes `a` to `a + count - 1` of memory lie in, ascending. -/
def blocksOf (a count : Nat) : List Nat :=
  if count = 0 then []
  else ascending (a / Config.blockBytes) ((a + count - 1) / Config.blockBytes - a / Config.blockBytes + 1)

/-- Write bytes of a frame into memory from address `a`, each touched block with a new check code (R54). -/
def writeBytes (a : Nat) (bytes : List Byte) (s : State) : State :=
  let s := (blocksOf a bytes.length).foldl (fun s b => recoverBlock b s) s
  { s with store := { s.store with mem := writeMem s.store.mem a bytes } }

/-- A memory error comes about in a block. A block that cannot be corrected stays so. -/
def spoilBlock (s : State) (e : MemError) : State :=
  if s.blockHealth e.block = .uncorrectable then s
  else { s with
    store :=
      { s.store with
        health := Table.set .sound s.store.health e.block (if e.correctable then .correctable else .uncorrectable) } }

/-- A record's frame bytes `lo` up to, but not including, `hi`, as memory holds them. -/
def frameBytes (s : State) (r : FrameRecord) (lo hi : Nat) : List Byte :=
  (ascending lo (hi - lo)).map fun b => readByte s (frameAddress r.chain b)

/-! ### Counting records -/

/-- How many catalogue records satisfy a test. Only records in use are ever tested positive. -/
def countRecords (s : State) (p : FrameRecord → Bool) : Nat :=
  (s.store.catalogue.filter fun e => p e.2).length

/-- Records in use in state HELD (R64). -/
def heldCount (s : State) : Nat := countRecords s fun r => r.state = .held

/-- Records in use that are evictable now (R64). -/
def evictableCount (s : State) : Nat := countRecords s fun r => r.evictable s.store.evictSent

end Sys2Proof.Machine
end

