-- ==== Sys2Proof/Machine/Formats.lean ====
section
/-! DEFINITION. What the device puts on its wires (chapter 10): the frame descriptor, uplink cells and answer records. -/

namespace Sys2Proof.Machine

/-! ### The frame descriptor (R170) -/

/-- An absent optional number is sent as zero (R167). -/
def orZero {n : Nat} (x : Option (BitVec n)) : BitVec n := x.getD 0

/-- The presence and status byte: bit 0 read error, bit 1 shot number present, bit 2 part tag present (R170). -/
def presenceByte (r : FrameRecord) : Byte :=
  byteOf (bitCode r.readError + 2 * bitCode r.shot.isSome + 4 * bitCode r.tag.isSome)

/-- The 32-byte frame descriptor of a record as it stands (R101, R170). -/
def descriptor (r : FrameRecord) : List Byte :=
  [byteOf r.port.val, presenceByte r] ++ be16 r.frame ++ be16 r.camera ++ be16 (halfOf r.width) ++
    be16 (halfOf r.height) ++ [byteOf r.bpp, r.flags.setWidth 8] ++ be32 (wordOf r.byteLength) ++
    be32 (wordOf r.cellCount) ++ be16 (orZero r.shot) ++ be32 (orZero r.tag) ++ List.replicate 6 0

/-! ### Uplink cells (R168, R169) -/

def CellKind.code : CellKind → Nat
  | .idle => 0
  | .data => 1
  | .answer => 2
  | .notice => 3

/-- The cell flags byte: bit 0 RECALL, bit 1 POISON, bit 2 LAST (R168). -/
def UplinkCell.flagByte (c : UplinkCell) : Byte :=
  byteOf (bitCode c.isRecall + 2 * bitCode c.poison + 4 * bitCode c.last)

/-- Header bytes 0 to 13 (R168). -/
def UplinkCell.headerBody (c : UplinkCell) : List Byte :=
  [byteOf c.kind.code, byteOf c.channel, byteOf c.port, c.flagByte] ++ be16 c.frame ++ be32 (wordOf c.index) ++
    be16 (halfOf c.payload.length) ++ [byteOf c.linkState.code, 0]

/-- The whole cell on the wire: the header with its check, and 512 bytes of payload area, zero past the payload bytes
(R167, R168, R169). -/
def UplinkCell.encode (c : UplinkCell) : List Byte :=
  c.headerBody ++ be16 (sum16 c.headerBody) ++ c.payload ++ List.replicate (512 - c.payload.length) 0

/-- A cell that is not a data cell: its data fields are zero (R168). -/
def controlCell (kind : CellKind) (linkState : LinkState) (payload : List Byte) : UplinkCell :=
  { kind, channel := 0, port := 0, isRecall := false, poison := false, last := false, frame := 0, index := 0
    linkState, payload }

/-- Idle fill (R132, R169). -/
def idleFill (linkState : LinkState) : UplinkCell := controlCell .idle linkState []

/-! ### Answer records (R174) -/

def Status.code : Status → Nat
  | .none => 0
  | .done => 1
  | .retry => 2
  | .refused => 3
  | .late => 4

def Reason.code : Reason → Nat
  | .noSuchRecord => 1
  | .noSuchField => 2
  | .wrongMaster => 3
  | .notFound => 4
  | .portTripped => 5
  | .portsActive => 6
  | .readOnly => 7
  | .badValue => 8

/-- The reason byte: 0 when not REFUSED (R174). -/
def reasonCode (r : Option Reason) : Nat :=
  match r with
  | none => 0
  | some r => r.code

/-- An answer record on the wire (R174). -/
def Answer.encode (a : Answer) : List Byte :=
  [byteOf (6 + a.value.length), a.kind] ++ be16 a.ref ++ [byteOf a.status.code, byteOf (reasonCode a.reason)] ++ a.value

/-- The answer record shifted out of an empty line answer buffer: status NONE, reference number 0 and no kind (R139,
R141). -/
def noneAnswer : Answer := { kind := 0, ref := 0, status := .none, reason := none, value := [] }

/-- The kind byte of a request (R173). -/
def requestKind : Request → Byte
  | .read _ _ => 0x01
  | .write _ _ _ => 0x02
  | .lockRead _ _ => 0x03
  | .writeUnlock _ _ _ => 0x04
  | .unlock _ => 0x05
  | .trigger _ _ _ _ => 0x06
  | .tag _ _ => 0x07
  | .verdict _ _ => 0x08
  | .queryFrame _ _ => 0x09
  | .queryShot _ => 0x0A
  | .recallFrame _ _ => 0x0B
  | .receipt _ _ => 0x0C
  | .hold _ _ => 0x0D
  | .unhold _ _ => 0x0E
  | .releaseKeep _ _ => 0x0F
  | .clearEvents _ => 0x10
  | .clearFault _ => 0x11
  | .readCounts _ => 0x12
  | .restartLink => 0x13
  | .flushStore => 0x14
  | .unknown kind => kind

/-- What a request's own rule answers: a status, a reason when refused, and a value (R141). -/
structure Reply where
  status : Status
  reason : Option Reason
  value  : List Byte
deriving DecidableEq, Repr

/-- DONE with this value. -/
def doneWith (value : List Byte) : Reply := { status := .done, reason := none, value }

/-- REFUSED for this reason. -/
def refuse (r : Reason) : Reply := { status := .refused, reason := some r, value := [] }

/-- RETRY. -/
def retry : Reply := { status := .retry, reason := none, value := [] }

/-- LATE. -/
def late : Reply := { status := .late, reason := none, value := [] }

/-- The answer to a request: its reference number and kind with the reply (R141). -/
def answerTo (ref : Half) (kind : Byte) (r : Reply) : Answer :=
  { kind, ref, status := r.status, reason := r.reason, value := r.value }

/-- The marks byte of QUERY_FRAME (R174). -/
def marksByte (r : FrameRecord) (evictable : Bool) : Byte :=
  byteOf (bitCode r.readError + 2 * bitCode r.keep + 4 * bitCode r.lineHold + 8 * bitCode r.officeHold +
    16 * bitCode r.verdictPending + 32 * bitCode r.recallPending + 64 * bitCode evictable)

/-- The value of a DONE answer to QUERY_FRAME (R63, R174). -/
def frameSummary (n : Nat) (r : FrameRecord) (evictable : Bool) : List Byte :=
  be16 (halfOf n) ++ [byteOf r.state.code] ++ be32 (wordOf r.byteLength) ++ be32 (wordOf r.cellCount) ++
    be32 (wordOf r.cellsSent) ++ [r.flags.setWidth 8, marksByte r evictable] ++
    [byteOf (bitCode r.shot.isSome + 2 * bitCode r.tag.isSome)] ++ be16 (orZero r.shot) ++ be32 (orZero r.tag) ++
    be16 r.camera ++ be16 (halfOf r.width) ++ be16 (halfOf r.height) ++ [byteOf r.bpp]

/-- The value of a DONE answer to QUERY_SHOT (R32, R174): each reference is given as its port and its record's frame
number. -/
def shotSummary (s : State) (h : Shot) : List Byte :=
  be16 h.number ++ [byteOf (bitCode h.tag.isSome)] ++ be32 (orZero h.tag) ++
    [byteOf h.origin.code, h.wanted, h.fired, h.missed, h.seen, byteOf (bitCode h.keep)] ++
    be16 (halfOf (ceilMs h.remaining)) ++ [byteOf h.refs.length] ++
    h.refs.flatMap fun p => [byteOf p.1.val] ++ be16 (s.record p.2).frame

end Sys2Proof.Machine
end

