-- ==== Sys2Proof/Machine/Dark.lean ====
section
/-! DEFINITION. The dark-port detector (section 4.8): passes, visits, tests and their endings. -/

namespace Sys2Proof.Machine

/-- Start the dark test of a port, with the dark test time as it stands (R84). -/
def startDarkTest (k : Port) (s : State) : State :=
  { s with dark := { s.dark with pass := .testing, current := k, timer := some (darkTestTime s.dark.testTime) } }

/-- Visit the masked ones of these ports in turn: wait on a port in WARMUP, test one that is RUN, THROTTLED or
UNGUARDED, skip one that is DISABLED or TRIPPED; when none is left the pass ends and the detector is IDLE, holding the
last visited port (R84, R86). -/
def visitPorts : List Port → State → State
  | [], s => { s with dark := { s.dark with pass := .idle, timer := none } }
  | k :: rest, s =>
    if inMask s.dark.mask k then
      match (s.sup k).state with
      | .warmup => { s with dark := { s.dark with pass := .waiting, current := k, timer := none } }
      | .run | .throttled | .unguarded => startDarkTest k s
      | .disabled | .tripped => visitPorts rest { s with dark := { s.dark with current := k } }
    else visitPorts rest s

/-- Start a new pass from the lowest port in the dark mask, abandoning any test or wait in progress (R83). -/
def startDarkPass (s : State) : State := visitPorts allPorts s

/-- A visit of port `k` has ended: visit the next port above it in the mask (R84). -/
def nextDarkVisit (k : Port) (s : State) : State := visitPorts (allPorts.filter fun j => k < j) s

/-- Port `k` was disabled or entered TRIPPED: a test of it, or a wait on it, is abandoned and sets no event (R84). -/
def abandonDarkVisit (k : Port) (s : State) : State :=
  if s.dark.pass ≠ .idle ∧ s.dark.current = k then nextDarkVisit k s else s

/-- Port `k` accepted an OPEN: a test of it passes and the visit ends (R85). -/
def darkOpenAccepted (k : Port) (s : State) : State :=
  if s.dark.pass = .testing ∧ s.dark.current = k then nextDarkVisit k s else s

/-- Port `k`'s warm-up ended: if the detector waits on it, its test starts (R68, R84). -/
def darkWarmupEnded (k : Port) (s : State) : State :=
  if s.dark.pass = .waiting ∧ s.dark.current = k then startDarkTest k s else s

end Sys2Proof.Machine
end

