-- ==== Sys2Proof/Machine/Completion.lean ====
section
/-! DEFINITION. The completion of a record and its placement (section 1.6), the decimation step (R73), the end of warm-up
(R68), and stopping a port's reception (R18). -/

namespace Sys2Proof.Machine

/-- The end of WARMUP, however it comes: the port enters RUN with blanking 32, warm-up armed returns to 0, and a dark
test that waits on the port starts (R68, R70). -/
def endWarmup (k : Port) (s : State) : State :=
  darkWarmupEnded k (s.modSup k fun u =>
    { u with
      state := .run, warmupTimer := none, warmupCompletions := 0, warmupArmed := false
      overCount := 0, tripDue := false, blanking := Config.blankingRounds })

/-- The supervisor is told of a completion: in WARMUP the first raises the warm-up completions, the second ends the
warm-up (R14, R68). -/
def warmupCompletion (k : Port) (s : State) : State :=
  if (s.sup k).state = .warmup then
    if (s.sup k).warmupCompletions = 0 then s.modSup k fun u => { u with warmupCompletions := 1 }
    else endWarmup k s
  else s

/-- A record enters HELD. -/
def holdRecord (n : Nat) (s : State) : State := s.modRecord n fun r => { r with state := .held }

/-- A record joins the tail of its port's live queue and enters QUEUED (R97). -/
def enqueue (k : Port) (n : Nat) (s : State) : State :=
  (s.setLive k (s.liveQueue k ++ [n])).modRecord n fun r => { r with state := .queued }

/-- Placement into the live queue if it holds fewer than 64 records, else HELD with QUEUE_FULL (R16 steps 1 and 3). -/
def queueOrHold (k : Port) (n : Nat) (s : State) : State :=
  if (s.liveQueue k).length < Config.liveQueueMax then enqueue k n s
  else (holdRecord n s).count k .queueFull

/-- Placement of a record without the keep mark while the port is THROTTLED: one decimation step, which then advances the
decimation count (R16 step 2, R73). -/
def decimate (k : Port) (n : Nat) (s : State) : State :=
  let c := (s.sup k).decimationCount
  let s := if c = 0 then queueOrHold k n s else (holdRecord n s).count k .heldThrottle
  s.modSup k fun u => { u with decimationCount := (c + 1) % decimationOf u.decimation }

/-- Placement of a clean record, or a damaged one under SEND, by keep mark and supervision state (R16). -/
def placeClean (k : Port) (n : Nat) (s : State) : State :=
  if (s.record n).keep = false ∧ (s.sup k).state = .throttled then decimate k n s else queueOrHold k n s

/-- A record leaves the references of every open shot that holds it (R17, R30). -/
def dropReference (n : Nat) (s : State) : State :=
  { s with
    shots :=
      { s.shots with
        shots := s.shots.shots.map fun h => { h with refs := h.refs.filter fun p => p.2 ≠ n } } }

/-- Discard by the damaged policy: the record is freed at once, its shot's reference ends, EVICTIONS does not rise (R15,
R17). -/
def discardRecord (k : Port) (n : Nat) (s : State) : State :=
  (dropReference n (freeRecord n s)).count k .discardedPolicy

/-- Placement at completion: the damaged policy first for a record carrying any lane flag (R15), else R16. -/
def placeRecord (k : Port) (n : Nat) (s : State) : State :=
  if (s.record n).damaged then
    match (s.cam k).policy with
    | .send => placeClean k n s
    | .hold => holdRecord n s
    | .discard => discardRecord k n s
  else placeClean k n s

/-- The completion of record `n` of port `k` (R14), and its placement. -/
def complete (k : Port) (n : Nat) (s : State) : State :=
  let flags := (s.record n).flags
  let s := { s with store := { s.store with ageList := s.store.ageList ++ [n] } }
  let s := s.count k .framesCompleted
  let s := if flags = 0 then s else (s.count k .framesDamaged).raisePort k .laneError
  let s := s.modCam k fun c => { c with lastFlags := flags }
  placeRecord k n (warmupCompletion k s)

/-- Truncate and complete one record. -/
def truncateAndComplete (k : Port) (s : State) (n : Nat) : State :=
  complete k n (s.modRecord n fun r => r.flag .truncated)

/-- The reception logic of port `k` stops: staging is emptied, every record that has not completed takes TRUNCATED and
completes, those on the completion list first, oldest first, then the assembling one; the port is IDLE (R18). The
supervision state just entered is already in force. -/
def stopReception (k : Port) (s : State) : State :=
  let c := s.cam k
  let s := s.modCam k fun c =>
    { c with
      receive := .idle, current := none, expected := 0, linesReceived := 0, bytesAccepted := 0
      staging := [], written := 0, completion := [] }
  (c.completion ++ c.current.toList).foldl (truncateAndComplete k) s

end Sys2Proof.Machine
end

