-- ==== Sys2Proof/Machine/Supervision.lean ====
section
/-! DEFINITION. The port supervisors (chapter 4): enable and warm-up, load windows, trips, throttling, CLEAR_FAULT; and
the commands WARMUP_EXPIRY, TRIP, CALM_RETURN, THROTTLE_TIMEOUT and DARK_TEST_EXPIRY. -/

namespace Sys2Proof.Machine

/-! ### Enable, warm-up, disable -/

/-- WARMUP entry: the warm-up timer starts, and the channel's credit becomes its cap unless its target is 0 (R68, R91). -/
def enterWarmup (k : Port) (s : State) : State :=
  let s := s.modSup k fun u =>
    { u with state := .warmup, warmupTimer := some (warmupTime u.warmupLength), warmupCompletions := 0 }
  s.modChan (chanOf k) fun c => if c.target = 0 then c else { c with credit := Config.slotPrice * c.ceiling }

/-- A write of enable from 0 to 1 (R66): WARMUP if warm-up is armed, else RUN with over-count 0. -/
def enablePort (k : Port) (s : State) : State :=
  if (s.sup k).warmupArmed then enterWarmup k s
  else s.modSup k fun u => { u with state := .run, overCount := 0, tripDue := false }

/-- A write of enable from 1 to 0 (R66): DISABLED from any state; reception stops (R18); a dark visit of the port is
abandoned (R84). -/
def disablePort (k : Port) (s : State) : State :=
  let s := s.modSup k fun u =>
    { u with
      state := .disabled, warmupTimer := none, throttleTimer := none, overCount := 0, tripDue := false
      calmCount := 0, decimationCount := 0, warmupCompletions := 0, blanking := 0, throttleExit := .none }
  abandonDarkVisit k (stopReception k s)

/-- Blanking remaining becomes 32, except in DISABLED, where it stays 0 (R70). -/
def startBlanking (k : Port) (s : State) : State :=
  s.modSup k fun u => if u.state = .disabled then u else { u with blanking := Config.blankingRounds }

/-! ### Trips and throttling -/

/-- TRIPPED entry (R76): the channel's target, rate and credit become 0, reception stops, a dark test is abandoned. -/
def enterTripped (k : Port) (s : State) : State :=
  let s := s.modSup k fun u =>
    { u with
      state := .tripped, overCount := 0, tripDue := false, calmCount := 0, decimationCount := 0
      throttleExit := .none, throttleTimer := none }
  let s := s.modChan (chanOf k) fun c => { c with target := 0, rate := 0, credit := 0, stepDue := false }
  abandonDarkVisit k (stopReception k s)

/-- UNGUARDED entry (R77): the channel's budget is untouched. -/
def enterUnguarded (k : Port) (s : State) : State :=
  s.modSup k fun u =>
    { u with
      state := .unguarded, overCount := 0, tripDue := false, calmCount := 0, decimationCount := 0
      throttleExit := .none, throttleTimer := none }

/-- THROTTLED entry (R72, R73, R75): counts at 0, with the exit of the episode and, for one with a timeout, its timer. -/
def enterThrottled (k : Port) (exit : ThrottleExit) (s : State) : State :=
  s.modSup k fun u =>
    { u with
      state := .throttled, overCount := 0, tripDue := false, calmCount := 0, decimationCount := 0
      throttleExit := exit
      throttleTimer := if exit = .none then none else some (throttleTime u.throttleTimeout) }

/-- A TRIP (R72): the TRIP flag is set, the over-count becomes 0, and the trip mode as it stands decides. -/
def takeTrip (k : Port) (s : State) : State :=
  let s := (s.raisePort k .trip).modSup k fun u => { u with overCount := 0, tripDue := false }
  match (s.sup k).tripMode with
  | .report => s
  | .latch => enterTripped k s
  | .throttle => enterThrottled k .none s
  | .throttleOff => enterThrottled k .toTripped s
  | .throttleRelease => enterThrottled k .toUnguarded s

/-- The return to calm (R74): RUN, the timer stopped, counts 0, blanking as it stands. -/
def calmReturn (k : Port) (s : State) : State :=
  s.modSup k fun u =>
    { u with
      state := .run, throttleTimer := none, throttleExit := .none, calmCount := 0, decimationCount := 0
      overCount := 0, tripDue := false }

/-- Take the TRIP that a round mark left due on a RUN port (R71, R72). -/
def tripIfDue (k : Port) (s : State) : State :=
  if (s.sup k).state = .run ∧ (s.sup k).tripDue then takeTrip k s else s

/-- Take the return to calm once the calm count of a THROTTLED port has reached 256 (R74). -/
def calmIfDue (k : Port) (s : State) : State :=
  if (s.sup k).state = .throttled ∧ Config.calmRounds ≤ (s.sup k).calmCount then calmReturn k s else s

/-! ### The round mark at a supervisor -/

/-- The last load a window's byte count closes to, in cells of 512 bytes, the remainder dropped (R69). A quotient outside
the field's 0–65,535 has no stated value: it is a free value (log entry 13). -/
def closedLoad (draw bytes : Nat) : Nat :=
  if bytes / 512 ≤ 65535 then bytes / 512 else (Config.freeLoad draw).toNat

/-- A round mark at one supervisor, given the load it closes: the window closes (R69), blanking falls (R70), a RUN port's
load is tested unless blanked or detection is off (R71), a THROTTLED port's calm rounds are counted (R74). -/
def Supervisor.mark (u : Supervisor) (load : Nat) : Supervisor :=
  let v := { u with
    loadBytes := 0, lastLoad := load
    blanking := if u.state = .disabled then u.blanking else u.blanking - 1 }
  match u.state with
  | .run =>
    if 0 < u.blanking ∨ u.threshold = 0 ∨ load ≤ u.threshold then { v with overCount := 0, tripDue := false }
    else { v with overCount := u.overCount + 1, tripDue := deglitchRounds u.deglitch ≤ u.overCount + 1 }
  | .throttled =>
    { v with calmCount := if u.threshold = 0 ∨ load ≤ u.threshold then u.calmCount + 1 else 0 }
  | .disabled | .warmup | .unguarded | .tripped => v

/-- A round mark at port `k`'s supervisor. -/
def markSupervisor (k : Port) (s : State) : State :=
  let bytes := (s.sup k).loadBytes
  let load := closedLoad s.draws bytes
  let s := s.modSup k fun u => u.mark load
  if bytes / 512 ≤ 65535 then s else { s with draws := s.draws + 1 }

/-! ### CLEAR_FAULT -/

/-- A CLEAR_FAULT on port `k` (R78): the effect by supervision state, blanking 32 except in DISABLED, and a new
dark-port pass. -/
def clearFault (k : Port) (s : State) : State :=
  let s := s.modSup k fun u =>
    match u.state with
    | .tripped | .unguarded => { u with state := .run, overCount := 0, tripDue := false }
    | .throttled =>
      { u with throttleTimer := u.throttleTimer.map fun _ => throttleTime u.throttleTimeout }
    | .run => { u with overCount := 0, tripDue := false }
    | .warmup | .disabled => u
  startDarkPass (startBlanking k s)

/-! ### Meanings -/

/-- WARMUP_EXPIRY: the warm-up timer has run out, WARMUP_TIMEOUT is set and the port enters RUN (R68). A port not in WARMUP
has no such timer. -/
def execWarmupExpiry (k : Port) (s : State) : Host.Outcome State Fault Refusal :=
  .next (if (s.sup k).state = .warmup ∧ ranOut (s.sup k).warmupTimer then endWarmup k (s.raisePort k .warmupTimeout) else s)

/-- TRIP: the over-count has reached the deglitch count at a round mark on a RUN port (R71, R72). -/
def execTrip (k : Port) (s : State) : Host.Outcome State Fault Refusal := .next (tripIfDue k s)

/-- CALM_RETURN: the calm count of a THROTTLED port has reached 256 (R74). -/
def execCalmReturn (k : Port) (s : State) : Host.Outcome State Fault Refusal := .next (calmIfDue k s)

/-- THROTTLE_TIMEOUT: the throttle timer of a THROTTLED port has run out (R75). Once the calm count has reached 256 the
return to calm came first and the expiry does not happen; nor does it while the timer is stopped or has time left. -/
def execThrottleTimeout (k : Port) (s : State) : Host.Outcome State Fault Refusal :=
  .next (if (s.sup k).state = .throttled ∧ ranOut (s.sup k).throttleTimer ∧
      (s.sup k).calmCount < Config.calmRounds then
    match (s.sup k).throttleExit with
    | .toTripped => enterTripped k (s.raisePort k .throttleTimeout)
    | .toUnguarded => enterUnguarded k (s.raisePort k .throttleTimeout)
    | .none => s
  else s)

/-- DARK_TEST_EXPIRY: the test timer has run out and the port under test has accepted no OPEN; DARK is set and the visit
ends (R85). -/
def execDarkTestExpiry (s : State) : Host.Outcome State Fault Refusal :=
  .next (if s.dark.pass = .testing ∧ ranOut s.dark.timer then
      nextDarkVisit s.dark.current (s.raisePort s.dark.current .dark)
    else s)

end Sys2Proof.Machine
end

