-- ==== Sys2Proof/Machine/Recall.lean ====
section
/-! DEFINITION. The recall unit (chapter 6): recalls, receipt marks, holds and keep releases; and the store's own
requests, QUERY_FRAME (R63) and FLUSH_STORE (R60, R61), with STORE_INIT_END. -/

namespace Sys2Proof.Machine

/-! ### Recall -/

/-- A RECALL taken in a state that lets it be merged: the record is FILLING, QUEUED or SENDING, or has recall pending
(R109). -/
def recallMerges (r : FrameRecord) : Bool :=
  r.state = .filling || r.state = .queued || r.state = .sending || r.recallPending

/-- RECALL (R109), by the first row of its table that applies. -/
def handleRecall (m : Master) (port : Byte) (frame : Half) (s : State) : State × Reply :=
  match m with
  | .line => (s, refuse .wrongMaster)
  | .office =>
    match s.named port frame with
    | none => (s, refuse .notFound)
    | some n =>
      if recallMerges (s.record n) then (s, doneWith [0])
      else if Config.recallMax ≤ s.recalls.queue.length then (s, retry)
      else
        let entry : RecallEntry := { record := n, started := false }
        let s := { s with recalls := { s.recalls with queue := s.recalls.queue ++ [entry] } }
        (s.modRecord n fun r => { r with recallPending := true }, doneWith [1])

/-! ### Receipts -/

/-- A record as a mark of port `k` leaves it (R116). -/
def FrameRecord.receipted (k : Port) (mark : Half) (r : FrameRecord) : FrameRecord :=
  if r.port = k ∧ r.state = .sent ∧ coveredBy r.frame mark then { r with state := .delivered } else r

/-- Each record of port `k` in state SENT that the mark covers becomes DELIVERED (R116). -/
def applyReceipt (k : Port) (mark : Half) (s : State) : State :=
  { s with
    store :=
      { s.store with catalogue := Table.mapValues .blank (FrameRecord.receipted k mark) s.store.catalogue } }

/-- The forward clamp: a mark that the port's last issued frame number is behind is taken as that number (R115 step 2). -/
def clampMark (last mark : Half) : Half := if behind last mark then last else mark

/-- A RECEIPT from the office (R115). -/
def takeReceipt (port : Byte) (mark : Half) (s : State) : State :=
  match portOfByte port with
  | none => s
  | some k =>
    let mark := clampMark (s.cam k).lastIssued mark
    if behind mark s.recalls.marks[k] then s
    else applyReceipt k mark { s with recalls := { s.recalls with marks := s.recalls.marks.set k mark } }

/-! ### Holds and keep releases -/

/-- A record with one master's own hold set so (R118). -/
def FrameRecord.withHold (r : FrameRecord) (m : Master) (b : Bool) : FrameRecord :=
  match m with
  | .line => { r with lineHold := b }
  | .office => { r with officeHold := b }

/-- HOLD and UNHOLD act on the sender's own hold on the named record (R118). -/
def handleSetHold (m : Master) (b : Bool) (port : Byte) (frame : Half) (s : State) : State × Reply :=
  match s.named port frame with
  | none => (s, refuse .notFound)
  | some n => (s.modRecord n fun r => r.withHold m b, doneWith [])

/-- RELEASE_KEEP from the office (R119). -/
def handleReleaseKeep (m : Master) (port : Byte) (frame : Half) (s : State) : State × Reply :=
  match m with
  | .line => (s, refuse .wrongMaster)
  | .office =>
    match s.named port frame with
    | none => (s, refuse .notFound)
    | some n => (s.modRecord n fun r => { r with keep := false }, doneWith [])

/-! ### The store's requests -/

/-- QUERY_FRAME from either master (R63). -/
def handleQueryFrame (port : Byte) (frame : Half) (s : State) : State × Reply :=
  match s.named port frame with
  | none => (s, refuse .notFound)
  | some n => (s, doneWith (frameSummary n (s.record n) ((s.record n).evictable s.store.evictSent)))

/-- A camera channel is sending while its live queue has a record in SENDING; channel 8 while the head of the recall
queue has started (R60). -/
def anySending (s : State) : Bool :=
  (allPorts.any fun k => (s.liveQueue k).any fun n => (s.record n).state = .sending) ||
    (s.recalls.queue.head?.any fun e => e.started)

/-- Some camera port's supervision state is not DISABLED (R60). -/
def anyPortActive (s : State) : Bool := allPorts.any fun k => (s.sup k).state ≠ .disabled

/-- A record as a flush leaves it: freed, if it was in use (R53, R61). -/
def FrameRecord.flushed (r : FrameRecord) : FrameRecord := if r.state = .free then r else r.freed

/-- The store after a flush (R61): every record free, the free lists rebuilt ascending, the age list and the lookup map
empty, INITIALIZING. -/
def Store.flushed (t : Store) : Store :=
  { t with
    phase := .initializing
    freePages := ascending 0 (pagesOf t.memSize)
    freeRecords := ascending 0 Config.recordCount
    ageList := []
    lookup := []
    catalogue := Table.mapValues .blank FrameRecord.flushed t.catalogue }

/-- The shots after a flush: still open, their frame references emptied (R30). -/
def ShotTable.flushed (t : ShotTable) : ShotTable :=
  { t with shots := t.shots.map fun h => { h with refs := [] } }

/-- A FLUSH_STORE that is taken (R61). -/
def flushStore (s : State) : State :=
  { s with
    store := s.store.flushed
    uplink := { s.uplink with live := .all [] }
    recalls := { s.recalls with queue := [] }
    shots := s.shots.flushed }.raise .storeFlushed

/-- FLUSH_STORE (R60). -/
def handleFlush (m : Master) (s : State) : State × Reply :=
  match m with
  | .office => (s, refuse .wrongMaster)
  | .line =>
    if anyPortActive s || anySending s then (s, refuse .portsActive)
    else if s.store.phase = .initializing then (s, retry)
    else (flushStore s, doneWith [])

/-! ### Meanings -/

/-- STORE_INIT_END: every block has been written with zero bytes and a valid check code, and the store enters READY
(R59). A READY store has no initialization to end. -/
def execStoreInitEnd (s : State) : Host.Outcome State Fault Refusal :=
  .next (match s.store.phase with
    | .ready => s
    | .initializing => { s with store := { s.store with phase := .ready, mem := [], health := [] } })

end Sys2Proof.Machine
end

