-- ==== Sys2Proof/Machine/Shots.lean ====
section
/-! DEFINITION. The shot table (chapter 2): creation, trigger slots, matching, closing and promotion, the handling of
TRIGGER, TAG, QUERY_SHOT and VERDICT; and the commands TRIGGER_EDGE, TRIGGER_SLOT_EXPIRY and DEADLINE_EXPIRY. -/

namespace Sys2Proof.Machine

/-! ### Finding and changing open shots -/

/-- The open shot of a number; the oldest, where a number reissued while its shot was still open names two (DESIGN CHOICE: log
entry 28). -/
def openShot (n : Half) (s : State) : Option Shot := s.shots.shots.find? fun h => h.number = n

/-- Change the open shot of a number, if there is one; both, where a number reissued while its shot was still open names two
(DESIGN CHOICE: log entry 28). -/
def modShot (n : Half) (f : Shot → Shot) (s : State) : State :=
  { s with shots := { s.shots with shots := s.shots.shots.map fun h => if h.number = n then f h else h } }

/-! ### Trigger slots and pulses -/

/-- The expiry of port `k`'s PENDING trigger slot (R28): CTRGk is pulsed, the slot becomes IDLE, and the port joins the
fired mask of the slot's shot if that is still open. The supervision state is not read. A slot names its shot by number alone:
where its shot has closed and a newer open shot bears the number, that one is marked fired, though it may not want the port
(DESIGN CHOICE: log entry 28). -/
def expireSlot (k : Port) (s : State) : State :=
  match s.slot k with
  | none => s
  | some t =>
    let s := { s with ctrg := s.ctrg.set k (s.ctrg[k] + 1) }
    modShot t.shot (fun h => { h with fired := h.fired ||| portBit k }) (s.setSlot k none)

/-- Whether a port may be given a trigger slot: not DISABLED and not TRIPPED (R25). -/
def slotAssignable (u : SupState) : Bool := u ≠ .disabled && u ≠ .tripped

/-- Port `k`, wanted by the shot just created, is given its trigger slot or marked missed (R25). A slot with a delay of 0
expires at once. -/
def assignSlot (n : Half) (k : Port) (s : State) : State :=
  if slotAssignable (s.sup k).state ∧ s.slot k = none then
    let delay := s.shots.triggerDelay[k]
    let s := s.setSlot k (some { shot := n, remaining := delay })
    if delay = 0 then expireSlot k s else s
  else
    let s := modShot n (fun h => { h with missed := h.missed ||| portBit k }) s
    (s.raisePort k .triggerMissed).count k .triggersMissed

/-! ### Closing a shot -/

/-- The verdict of a close by deadline or overflow: the default verdict while ATTENDED, REVIEW while LINE_SILENT (R24,
R33, R39). -/
def automaticVerdict (s : State) : Verdict :=
  match s.shots.lineState with
  | .attended => s.shots.defaultVerdict
  | .silent => .review

/-- A HELD record offered for promotion (R36). -/
def promote (n : Nat) (s : State) : State :=
  let r := s.record n
  if r.recallPending then s
  else if (s.liveQueue r.port).length < Config.liveQueueMax then enqueue r.port n s
  else s.count r.port .promoteFailed

/-- What a close does to one referenced record (R35 steps 1 to 3). -/
def closeReference (v : Verdict) (s : State) (p : Port × Nat) : State :=
  let s := s.modRecord p.2 fun r => { r with verdictPending := false, keep := r.keep || v ≠ .pass }
  if v ≠ .pass ∧ (s.record p.2).state = .held then promote p.2 s else s

/-- The close of a shot with a verdict (R35): its references are acted on in order, then it leaves the open-shot list. Where
its number was reissued while it was still open, every shot of the number leaves with it, and the records the others reference
keep verdict pending (DESIGN CHOICE: log entry 28). -/
def closeShot (v : Verdict) (h : Shot) (s : State) : State :=
  let s := h.refs.foldl (closeReference v) s
  { s with shots := { s.shots with shots := s.shots.shots.filter fun g => g.number ≠ h.number } }

/-! ### Creating a shot -/

/-- With 64 shots open the oldest is closed to make room (R23, R24). While fewer are open none is closed, so a shot stays open
although 64 newer ones were created and most of them closed; R20's remark that every open shot is among the 64 most
recently created does not hold of these rules (DESIGN CHOICE: log entry 28). -/
def makeShotRoom (s : State) : State :=
  match s.shots.shots with
  | [] => s
  | h :: _ =>
    if s.shots.shots.length < Config.openShotMax then s
    else ((closeShot (automaticVerdict s) h s).raise .shotOverflow).countGlobal .shotOverflows 1

/-- The recent-shot window with one more number: the oldest leaves a full window first (R20). -/
def windowWith (w : List Half) (n : Half) : List Half :=
  (if w.length < Config.shotWindowMax then w else w.tail) ++ [n]

/-- The record of a shot just created (R23 step 3). -/
def newShot (s : State) (wanted : BitVec 8) (keep : Bool) (tag : Option Word) (origin : Origin) : Shot :=
  { number := s.shots.next, tag, origin, wanted, fired := 0, missed := 0, seen := 0, keep
    deadline := s.shots.deadline, remaining := s.shots.deadline * Config.usPerMs, refs := [] }

/-- Create a shot (R23). -/
def createShot (wanted : BitVec 8) (keep : Bool) (tag : Option Word) (origin : Origin) (s : State) : State :=
  let s := makeShotRoom s
  let h := newShot s wanted keep tag origin
  let s := { s with
    shots :=
      { s.shots with
        shots := s.shots.shots ++ [h], next := s.shots.next + 1, window := windowWith s.shots.window h.number } }
  eachPort (fun k s => if inMask wanted k then assignSlot h.number k s else s) s

/-! ### Matching a frame -/

/-- Match the record just accepted on port `k` to the oldest open shot that has fired and not seen the port, or count it
FREE_RUN (R29). Where its number names two open shots, both take the reference (DESIGN CHOICE: log entry 28). -/
def matchFrame (k : Port) (n : Nat) (s : State) : State :=
  match s.shots.shots.find? fun h => inMask h.fired k && !inMask h.seen k with
  | none => s.count k .freeRun
  | some h =>
    let s := modShot h.number (fun h => { h with seen := h.seen ||| portBit k, refs := h.refs ++ [(k, n)] }) s
    s.modRecord n fun r =>
      { r with
        shot := some h.number, verdictPending := true, keep := r.keep || h.keep
        tag := h.tag.or r.tag }

/-! ### Requests -/

/-- TRIGGER from the line controller (R26, R174 step 2). -/
def handleTrigger (m : Master) (mask keep tagPresent : Byte) (tag : Word) (s : State) : State × Reply :=
  match m with
  | .office => (s, refuse .wrongMaster)
  | .line =>
    if 1 < keep.toNat ∨ 1 < tagPresent.toNat then (s, refuse .badValue)
    else
      let t := createShot mask (keep = 1) (if tagPresent = 1 then some tag else none) .request s
      (t, doneWith (be16 s.shots.next))

/-- TAG from the line controller (R31). -/
def handleTag (m : Master) (shot : Half) (tag : Word) (s : State) : State × Reply :=
  match m with
  | .office => (s, refuse .wrongMaster)
  | .line =>
    match openShot shot s with
    | none => (s, refuse .notFound)
    | some h =>
      let s := modShot shot (fun h => { h with tag := some tag }) s
      (h.refs.foldl (fun s p => s.modRecord p.2 fun r => { r with tag := some tag }) s, doneWith [])

/-- QUERY_SHOT from either master (R32). -/
def handleQueryShot (shot : Half) (s : State) : State × Reply :=
  match openShot shot s with
  | none => (s, refuse .notFound)
  | some h => (s, doneWith (shotSummary s h))

/-- VERDICT from the line controller (R34). -/
def handleVerdict (m : Master) (shot : Half) (v : Byte) (s : State) : State × Reply :=
  match m with
  | .office => (s, refuse .wrongMaster)
  | .line =>
    if 2 < v.toNat then (s, refuse .badValue)
    else match openShot shot s with
      | some h => (closeShot (.ofCode v.toNat) h s, doneWith [])
      | none =>
        if s.shots.window.contains shot then ((s.raise .verdictLate).countGlobal .verdictsLate 1, late)
        else (s, refuse .notFound)

/-! ### Meanings -/

/-- TRIGGER_EDGE: a level change on a trigger input creates a shot if its pin mask is not empty (R27). -/
def execTriggerEdge (pin : Fin 4) (s : State) : Host.Outcome State Fault Refusal :=
  .next (if s.shots.pinMasks[pin] = 0 then s else createShot s.shots.pinMasks[pin] false none (.pin pin) s)

/-- TRIGGER_SLOT_EXPIRY: the slot's delay has run out (R28). An IDLE slot has no delay to run out. -/
def execTriggerSlotExpiry (k : Port) (s : State) : Host.Outcome State Fault Refusal :=
  .next (if ranOut ((s.slot k).map TriggerSlot.remaining) then expireSlot k s else s)

/-- DEADLINE_EXPIRY: an open shot whose deadline timer has run out closes with the deadline's verdict (R33); the timer of a
closed shot was cancelled. -/
def execDeadlineExpiry (shot : Half) (s : State) : Host.Outcome State Fault Refusal :=
  .next (match openShot shot s with
    | none => s
    | some h => if h.remaining = 0 then closeShot (automaticVerdict s) h s else s)

end Sys2Proof.Machine
end

