-- ==== Sys2Proof/Machine/Lane.lean ====
section
/-! DEFINITION. Camera ports (chapter 1): lane messages, staging and page writing; the commands OPEN, LINE, CLOSE,
UNRECOGNIZED_LANE_MESSAGE, LINE_WRITE_END and PAGE_REQUEST. -/

namespace Sys2Proof.Machine

/-- Whether a port's reception logic takes lane messages: not in DISABLED or TRIPPED (R2). -/
def receives (u : SupState) : Bool := u ≠ .disabled && u ≠ .tripped

/-- The port has a line of record `n` in its staging buffer. -/
def CameraPort.hasStaged (c : CameraPort) (n : Nat) : Bool := c.staging.any fun l => l.owner = n

/-! ### OPEN -/

/-- A record ends its assembly (R3 step 1, R11): it leaves the current frame reference; with lines still staged it joins
the completion list, else its completion is taken at once. -/
def endAssembly (k : Port) (n : Nat) (s : State) : State :=
  let s := s.modCam k fun c => { c with current := none }
  if (s.cam k).hasStaged n then s.modCam k fun c => { c with completion := c.completion ++ [n] }
  else complete k n s

/-- An OPEN while ASSEMBLING cuts the assembling frame short with TRUNCATED; its COUNT test is not made (R3 step 1). -/
def truncateByOpen (k : Port) (s : State) : State :=
  match (s.cam k).current with
  | none => s
  | some n => endAssembly k n (s.modRecord n fun r => r.flag .truncated)

/-- Dimensions outside their ranges, or over the limits on a line or a frame (R3 step 2). -/
def oversize (width height bpp : Nat) : Bool :=
  width < 1 || 16384 < width || height < 1 || bpp < 1 || 4 < bpp ||
    16384 < width * bpp || Config.frameLimit < width * height * bpp

/-- A frame is refused: STORE_REFUSED is set and the port skips to the next CLOSE or OPEN (R3). Expected index, lines
received and bytes accepted stand (DEDUCED: log entry 16). -/
def refuseFrame (k : Port) (c : PortCount) (s : State) : State :=
  ((s.count k c).raisePort k .storeRefused).modCam k fun c => { c with receive := .skipping }

/-- The record of an accepted frame, as R4 fills it. -/
def openedRecord (k : Port) (frame counter width height : Half) (bpp : Byte) : FrameRecord :=
  { FrameRecord.blank with
    port := k, frame, camera := counter, width := width.toNat, height := height.toNat, bpp := bpp.toNat
    state := .filling }

/-- The store supplied record `n`: the frame is accepted (R4, R5). -/
def acceptFrame (k : Port) (n : Nat) (counter width height : Half) (bpp : Byte) (s : State) : State :=
  let frame := (s.cam k).nextFrame
  let s := s.setRecord n (openedRecord k frame counter width height bpp)
  let s := s.setLookup k frame (some n)
  let s := s.modCam k fun c =>
    { c with
      receive := .assembling, current := some n, expected := 0, linesReceived := 0, bytesAccepted := 0
      nextFrame := c.nextFrame + 1 }
  darkOpenAccepted k ((matchFrame k n s).count k .framesOpened)

/-- An OPEN taken by the reception logic (R3). -/
def takeOpen (k : Port) (counter width height : Half) (bpp : Byte) (s : State) : State :=
  let s := if (s.cam k).receive = .assembling then truncateByOpen k s else s
  if oversize width.toNat height.toNat bpp.toNat then refuseFrame k .oversize s
  else if s.store.phase = .initializing then refuseFrame k .refused s
  else match requestRecord k s with
    | (none, s) => refuseFrame k .refused s
    | (some n, s) => acceptFrame k n counter width height bpp s

/-! ### LINE -/

/-- A line whose length field is out of range, or whose payload has not that many bytes, is malformed (R8, R178). -/
def malformed (length : Half) (payload : List Byte) : Bool :=
  length.toNat < 1 || 16384 < length.toNat || payload.length ≠ length.toNat

/-- A line is admitted to staging or, with the buffer full, discarded with OVERRUN (R9, R10). `room` is what the
512-page limit leaves the frame. -/
def stageLine (k : Port) (n : Nat) (payload : List Byte) (s : State) : State :=
  let room := Config.frameLimit - (s.cam k).bytesAccepted
  let admitted := payload.take room
  let s := s.modRecord n fun r => r.flagIf (room < payload.length) .length
  if admitted = [] then s
  else if (s.cam k).staging.length < Config.stagingSlots then
    s.modCam k fun c =>
      { c with
        bytesAccepted := c.bytesAccepted + admitted.length
        staging := c.staging ++ [{ payload := admitted, owner := n }] }
  else (s.modRecord n fun r => r.flag .overrun).count k .overrunLines

/-- A LINE of the assembling record `n`: counted and placed in sequence (R7), tested (R8), stored (R9, R10). -/
def assembleLine (k : Port) (n : Nat) (index length check : Half) (payload : List Byte) (s : State) : State :=
  let outOfSequence : Bool := index.toNat ≠ (s.cam k).expected
  let s := s.modCam k fun c =>
    { c with linesReceived := min (c.linesReceived + 1) 65536, expected := index.toNat + 1 }
  let s := s.modRecord n fun r => r.flagIf outOfSequence .sequence
  if malformed length payload then s.modRecord n fun r => r.flag .length
  else
    let s := s.modRecord n fun r =>
      (r.flagIf (payload.length ≠ r.width * r.bpp) .length).flagIf (sum16 payload ≠ check) .check
    stageLine k n payload s

/-- A LINE taken by the reception logic: stray in IDLE and SKIPPING (R6). -/
def takeLineMessage (k : Port) (index length check : Half) (payload : List Byte) (s : State) : State :=
  match (s.cam k).receive, (s.cam k).current with
  | .assembling, some n => assembleLine k n index length check payload s
  | .assembling, none => s.count k .stray
  | .idle, _ => s.count k .stray
  | .skipping, _ => s.count k .stray

/-! ### CLOSE -/

/-- A CLOSE taken by the reception logic (R11). Once the frame's assembly has ended the manual says nothing of bytes
accepted, which stands (DEDUCED), nor of expected index and lines received, which become 0 (DEDUCED: log entry 16). -/
def takeClose (k : Port) (count : Half) (s : State) : State :=
  match (s.cam k).receive with
  | .idle => s.count k .stray
  | .skipping => s.modCam k fun c => { c with receive := .idle }
  | .assembling =>
    let countFails : Bool := count.toNat ≠ (s.cam k).linesReceived
    let current := (s.cam k).current
    let s := s.modCam k fun c => { c with receive := .idle, expected := 0, linesReceived := 0 }
    match current with
    | none => s
    | some n => endAssembly k n (s.modRecord n fun r => r.flagIf countFails .count)

/-! ### Lane messages -/

/-- A lane message arriving at port `k` (R2): in DISABLED and TRIPPED it is discarded and counted DISCARDED_STATE,
whatever its kind; otherwise the reception logic takes it. `none` is a message R178 does not recognize. -/
def laneMessage (k : Port) (msg : Option LaneMessage) (s : State) : State :=
  if receives (s.sup k).state then
    match msg with
    | none => s
    | some (.opening counter width height bpp) => takeOpen k counter width height bpp s
    | some (.line index length check payload) => takeLineMessage k index length check payload s
    | some (.closing count) => takeClose k count s
  else s.count k .discardedState

/-! ### The page writer -/

/-- The bytes a record's last page has room for: none when the chain is empty or its last page is full (R12). -/
def FrameRecord.pageRoom (r : FrameRecord) : Nat := r.chain.length * Config.pageBytes - r.byteLength

/-- The page writer of port `k` places the next `count` bytes of the oldest staged line, which its record's last page has
room for (R12): byte length and load byte count rise by their number. -/
def placeBytes (k : Port) (count : Nat) (s : State) : State :=
  match (s.cam k).staging with
  | [] => s
  | l :: _ =>
    let r := s.record l.owner
    let bytes := (l.payload.drop (s.cam k).written).take count
    let s := writeBytes (frameAddress r.chain r.byteLength) bytes s
    let s := s.modRecord l.owner fun r => { r with byteLength := r.byteLength + bytes.length }
    let s := s.modCam k fun c => { c with written := c.written + bytes.length }
    s.modSup k fun u => { u with loadBytes := u.loadBytes + bytes.length }

/-- The bytes of the oldest staged line that are not yet in memory, and the room its record's last page has for them;
none when nothing is staged. -/
def writeState (k : Port) (s : State) : Option (Nat × Nat) :=
  match (s.cam k).staging with
  | [] => none
  | l :: _ => some (l.payload.length - (s.cam k).written, (s.record l.owner).pageRoom)

/-- The end of the write of the oldest staged line: it leaves staging, and if it was the last of a record on the
completion list, that record completes (R12). -/
def finishLine (k : Port) (s : State) : State :=
  match (s.cam k).staging with
  | [] => s
  | l :: rest =>
    let s := s.modCam k fun c => { c with staging := rest, written := 0 }
    if (s.cam k).completion.contains l.owner ∧ (s.cam k).hasStaged l.owner = false then
      complete k l.owner (s.modCam k fun c => { c with completion := c.completion.erase l.owner })
    else s

/-- Record `n` of port `k` is cut short by the full store (R13): every staged line of it goes, it takes STORE_FULL, it
leaves the current frame reference (the port then skips) or the completion list, and it completes at once. Expected
index, lines received and bytes accepted stand (DEDUCED: log entry 16). -/
def cutShort (k : Port) (n : Nat) (s : State) : State :=
  let s := s.modRecord n fun r => r.flag .storeFull
  let s := s.modCam k fun c =>
    { c with
      staging := c.staging.filter fun l => l.owner ≠ n
      written := 0
      receive := if c.current = some n then .skipping else c.receive
      current := if c.current = some n then none else c.current
      completion := c.completion.erase n }
  complete k n s

/-- The page writer asks the store for a page for record `n`; a refusal cuts the record short (R13, R43). A page handed out
joins the chain, and the byte it was asked for is placed in it in the same event, so that the chain always holds as many
pages as the byte length needs (R12, R44; DEDUCED: log entry 27). -/
def askPage (k : Port) (n : Nat) (s : State) : State :=
  match takePage s with
  | (some p, s) => placeBytes k 1 (s.modRecord n fun r => { r with chain := r.chain ++ [p] })
  | (none, s) => cutShort k n s

/-- The page writer of port `k` makes a free amount of progress with the line it is writing, short of the line's end and
within its record's last page (log entry 6). -/
def writerProgress (k : Port) (s : State) : State :=
  match writeState k s with
  | none => s
  | some (left, room) =>
    let s := placeBytes k (Config.freeProgress s.draws % (min (left - 1) room + 1)) s
    { s with draws := s.draws + 1 }

/-! ### Meanings -/

/-- OPEN (R2, R3). -/
def execOpen (k : Port) (counter width height : Half) (bpp : Byte) (s : State) : Host.Outcome State Fault Refusal :=
  .next (laneMessage k (some (.opening counter width height bpp)) s)

/-- LINE (R2, R6, R7). -/
def execLine (k : Port) (index length check : Half) (payload : List Byte) (s : State) :
    Host.Outcome State Fault Refusal :=
  .next (laneMessage k (some (.line index length check payload)) s)

/-- CLOSE (R2, R11). -/
def execClose (k : Port) (count : Half) (s : State) : Host.Outcome State Fault Refusal :=
  .next (laneMessage k (some (.closing count)) s)

/-- UNRECOGNIZED_LANE_MESSAGE (R2, R178): read as its bytes stand. -/
def execUnrecognized (k : Port) (msg : List Byte) (s : State) : Host.Outcome State Fault Refusal :=
  .next (laneMessage k (decodeLane msg) s)

/-- LINE_WRITE_END (R12): the rest of the oldest staged line reaches memory and the write ends. A write that still needs
a page has not reached its end, and with nothing staged no write is in progress. -/
def execLineWriteEnd (k : Port) (s : State) : Host.Outcome State Fault Refusal :=
  .next (match writeState k s with
    | none => s
    | some (left, room) => if left ≤ room then finishLine k (placeBytes k left s) else s)

/-- PAGE_REQUEST (R12, R43): the line being written fills its record's last page, and the writer needs a page for the
next byte, which it places as soon as it has the page. A write whose rest fits asks for no page. -/
def execPageRequest (k : Port) (s : State) : Host.Outcome State Fault Refusal :=
  .next (match (s.cam k).staging, writeState k s with
    | l :: _, some (left, room) => if left ≤ room then s else askPage k l.owner (placeBytes k room s)
    | _, _ => s)

end Sys2Proof.Machine
end

