-- ==== Sys2Proof/Machine/Scheduler.lean ====
section
/-! DEFINITION. The uplink scheduler (chapter 5) and channel 8's sends (R112, R113): budgets, refill and slew, the slot
arbiter, cutting frames into cells, ends of sends; and the commands ROUND_MARK, SLEW_STEP and DATA_SLOT. -/

namespace Sys2Proof.Machine

/-! ### Refill and slew -/

/-- A channel's credit cap: 16 times its ceiling (R88). -/
def Channel.cap (c : Channel) : Nat := Config.slotPrice * c.ceiling

/-- Refill: the credit rises by the rate, capped (R94). -/
def Channel.refill (c : Channel) : Channel := { c with credit := min (c.credit + c.rate) c.cap }

/-- The difference between target and rate. -/
def Channel.distance (c : Channel) : Nat := max (c.target - c.rate) (c.rate - c.target)

/-- The step size of a slew step, limited to the difference (R96). -/
def Channel.stepSize (c : Channel) : Nat :=
  let size :=
    if c.distance ≤ c.window then 1
    else if c.target < c.rate ∧ c.asymmetric then 4
    else 8
  min size c.distance

/-- One slew step of the rate toward the target (R96). -/
def Channel.step (c : Channel) : Channel :=
  { c with rate := if c.rate < c.target then c.rate + c.stepSize else c.rate - c.stepSize }

/-- Counting toward the next slew step: a channel whose slew code is not 0 and whose rate is not at its target counts
down; at 0 the countdown restarts at the full period and the slew step is due (R95). -/
def Channel.countSlew (c : Channel) : Channel :=
  if c.slewCode = 0 ∨ c.rate = c.target then c
  else if c.countdown ≤ 1 then { c with countdown := slewPeriod c.slewCode, stepDue := true }
  else { c with countdown := c.countdown - 1 }

/-- A round mark at a channel: refill, then the count toward the slew step (R94, R95). -/
def Channel.mark (c : Channel) : Channel := c.refill.countSlew

/-- Take the slew step that a round mark left due (R95, R96). -/
def Channel.stepIfDue (c : Channel) : Channel := if c.stepDue then { c.step with stepDue := false } else c

/-- Something for each of the nine channels. -/
def eachChannel (f : Channel → Channel) (s : State) : State :=
  { s with uplink := { s.uplink with chans := Vector.ofFn fun c : Chan => f s.uplink.chans[c] } }

/-- What earlier round marks left due and no command has taken is taken before the next mark (log entry 5). TRIPs and returns
to calm due on several ports are taken from port 0 upward; the manual gives no order (DESIGN CHOICE: log entry 21). -/
def settleDue (s : State) : State :=
  eachChannel Channel.stepIfDue (eachPort (fun k s => calmIfDue k (tripIfDue k s)) s)

/-- A round mark: each supervisor's, then each channel's (R69 to R74, R94, R95). -/
def markRound (s : State) : State := eachChannel Channel.mark (eachPort markSupervisor s)

/-! ### Budget writes -/

/-- The rate and credit after a target write, by the first case of R90 that applies; `t` is the clamped value. A slew step
that the last round mark made due is the mark's, and is taken first (R90, R95; log entry 5). -/
def Channel.writeTarget (c : Channel) (t : Nat) : Channel :=
  let c := c.stepIfDue
  if t = 0 then { c with target := 0, rate := 0, credit := 0 }
  else if c.slewCode = 0 then { c with target := t, rate := t }
  else if c.rate = 0 then { c with target := t, rate := min c.startRate t, countdown := slewPeriod c.slewCode }
  else { c with target := t }

/-- A ceiling write: stored, and the credit cut to the new cap (R92). -/
def Channel.writeCeiling (c : Channel) (n : Nat) : Channel :=
  { c with ceiling := n, credit := min c.credit (Config.slotPrice * n) }

/-- A slew code write (R93), after a slew step that the last round mark made due (R95; log entry 5). -/
def Channel.writeSlewCode (c : Channel) (code : Fin 8) : Channel :=
  let c := c.stepIfDue
  if code = 0 then { c with slewCode := code, rate := c.target, countdown := 0 }
  else { c with slewCode := code, countdown := slewPeriod code }

/-- A window write (R89). A slew step that the last round mark made due is taken first, by the window it fell due with. -/
def Channel.writeWindow (c : Channel) (n : Nat) : Channel := { c.stepIfDue with window := n }

/-- A write of asymmetric (R89). A slew step that the last round mark made due is taken first, with the old setting. -/
def Channel.writeAsymmetric (c : Channel) (on : Bool) : Channel := { c.stepIfDue with asymmetric := on }

/-! ### The slot arbiter -/

/-- Whether a channel has a cell ready (R98, R112). -/
def cellReady (s : State) (c : Chan) : Bool :=
  s.link.state = .up &&
    match portOf c with
    | some k => s.liveQueue k ≠ []
    | none => s.recalls.queue ≠ []

/-- A cell ready and credit of at least 16 (R98). -/
def creditEligible (s : State) (c : Chan) : Bool := cellReady s c && Config.slotPrice ≤ (s.chan c).credit

/-- A cell ready and surplus enable ON (R98). -/
def surplusEligible (s : State) (c : Chan) : Bool := cellReady s c && (s.chan c).surplus

/-- The nine channels in cyclic order, starting with the one after `last` (R99). -/
def cyclicAfter (last : Chan) : List Chan :=
  [last + 1, last + 2, last + 3, last + 4, last + 5, last + 6, last + 7, last + 8, last]

/-- The winner of a data slot in the credit pass (R99 step 1). -/
def creditWinner (s : State) : Option Chan := (cyclicAfter s.uplink.lastCredit).find? (creditEligible s)

/-- The winner of a data slot in the surplus pass (R99 step 2). -/
def surplusWinner (s : State) : Option Chan := (cyclicAfter s.uplink.lastSurplus).find? (surplusEligible s)

/-! ### Reading a cell's payload (R55 to R58) -/

/-- The frame bytes cell `i` carries, as a range from its first up to, but not including, its last plus one: cut off at
the byte length (R55). -/
def cellRange (r : FrameRecord) (i : Nat) : Nat × Nat :=
  if i = 0 then (0, min 480 r.byteLength)
  else (480 + 512 * (i - 1), min (480 + 512 * i) r.byteLength)

/-- One block read for a cell: the frame bytes it carries of the block, and whether its error could not be corrected.
A corrected block counts CORRECTED (R56); an uncorrectable one is handed over as read (a free value, log entry 12),
counts UNCORRECTABLE, sets STORE_ECC and the record's read error (R57). -/
def readBlock (n : Nat) (lo hi : Nat) (s : State) : List Byte × Bool × State :=
  let r := s.record n
  match s.blockHealth (frameAddress r.chain lo / Config.blockBytes) with
  | .sound => (frameBytes s r lo hi, false, s)
  | .correctable => (frameBytes s r lo hi, false, s.countGlobal .corrected 1)
  | .uncorrectable =>
    let bytes := (ascending lo (hi - lo)).map fun b => Config.freeByte s.draws (frameAddress r.chain b)
    let s := (({ s with draws := s.draws + 1 }).countGlobal .uncorrectable 1).raise .storeEcc
    (bytes, true, s.modRecord n fun r => { r with readError := true })

/-- Read frame bytes `lo` up to `hi` of record `n`, block by block; `fuel` bounds the blocks. -/
def readBlocks (n : Nat) : Nat → Nat → Nat → State → List Byte × Bool × State
  | 0, _, _, s => ([], false, s)
  | fuel + 1, lo, hi, s =>
    if hi ≤ lo then ([], false, s)
    else
      let upTo := min hi ((lo / Config.blockBytes + 1) * Config.blockBytes)
      let (bytes, poison, s) := readBlock n lo upTo s
      let (more, poison', s) := readBlocks n fuel upTo hi s
      (bytes ++ more, poison || poison', s)

/-- The payload of cell `i` of record `n`: the descriptor, in cell 0, formed from the record as it stands at the grant,
then the frame bytes (R55, R101). A cell of 512 bytes touches at most 10 blocks. -/
def readCell (n i : Nat) (s : State) : List Byte × Bool × State :=
  let r := s.record n
  let (lo, hi) := cellRange r i
  let (bytes, poison, s) := readBlocks n 10 lo hi s
  ((if i = 0 then descriptor r else []) ++ bytes, poison, s)

/-! ### Sending -/

/-- The data cell of record `r`'s cell `i` on channel `c` (R101, R104, R168, R169). -/
def dataCell (c : Chan) (r : FrameRecord) (i : Nat) (poison : Bool) (linkState : LinkState) (payload : List Byte) :
    UplinkCell :=
  { kind := .data, channel := c.val, port := r.port.val, isRecall := c = recallChan, poison
    last := i + 1 = r.cellCount, frame := r.frame, index := i, linkState, payload }

/-- The cell a slot carries goes out. -/
def sendCell (cell : UplinkCell) (s : State) : State := { s with uplink := { s.uplink with sent := some cell } }

/-- Cut, read and send the next cell of record `n` on channel `c`; cells sent rises by 1 (R101, R104). -/
def sendNext (c : Chan) (n : Nat) (s : State) : State :=
  let r := s.record n
  let (payload, poison, s) := readCell n r.cellsSent s
  let s := s.modRecord n fun r => { r with cellsSent := r.cellsSent + 1 }
  sendCell (dataCell c r r.cellsSent poison s.link.state payload) s

/-- The grant of cell 0 of a live send: the record enters SENDING with cells sent 0 and becomes the channel's current
record (R101). A send already under way goes on. -/
def beginSend (k : Port) (n : Nat) (s : State) : State :=
  if (s.record n).state = .sending then s
  else (s.modRecord n fun r => { r with state := .sending, cellsSent := 0 }).modChan (chanOf k)
    fun c => { c with current := some n }

/-- The end of a live send, once cells sent has reached the cell count (R103). -/
def endSend (k : Port) (n : Nat) (s : State) : State :=
  if (s.record n).cellsSent < (s.record n).cellCount then s
  else
    let s := s.modRecord n fun r => { r with state := .sent }
    (s.setLive k (s.liveQueue k).tail).modChan (chanOf k) fun c => { c with current := none }

/-- A data slot granted to camera channel `k` (R101, R103). -/
def grantLive (k : Port) (s : State) : State :=
  match s.liveQueue k with
  | [] => s
  | n :: _ => endSend k n ((sendNext (chanOf k) n (beginSend k n s)).count k .cellsLive)

/-- The recall queue with its head's started marker set so. -/
def setHeadStarted (b : Bool) (s : State) : State :=
  match s.recalls.queue with
  | [] => s
  | e :: rest => { s with recalls := { s.recalls with queue := { e with started := b } :: rest } }

/-- The grant of cell 0 of a recall: the head is marked started, cells sent is 0, the record is channel 8's current
record (R112). -/
def beginRecall (e : RecallEntry) (s : State) : State :=
  if e.started then s
  else ((setHeadStarted true s).modRecord e.record fun r => { r with cellsSent := 0 }).modChan recallChan
    fun c => { c with current := some e.record }

/-- The end of a recall, once cells sent has reached the cell count: the head entry leaves, recall pending becomes no, a
HELD record becomes SENT (R113). -/
def endRecall (n : Nat) (s : State) : State :=
  if (s.record n).cellsSent < (s.record n).cellCount then s
  else
    let s := { s with recalls := { s.recalls with queue := s.recalls.queue.tail } }
    (s.modRecord n fun r =>
      { r with recallPending := false, state := if r.state = .held then .sent else r.state }).modChan recallChan
      fun c => { c with current := none }

/-- A data slot granted to channel 8 (R104, R112, R113). -/
def grantRecall (s : State) : State :=
  match s.recalls.queue with
  | [] => s
  | e :: _ =>
    endRecall e.record ((sendNext recallChan e.record (beginRecall e s)).countGlobal .cellsRecall 1)

/-- A data slot granted to a channel. -/
def grant (c : Chan) (s : State) : State :=
  match portOf c with
  | some k => grantLive k s
  | none => grantRecall s

/-- A data slot of the uplink, by the arbiter's passes (R99); outside UP no channel has a cell ready and the slot carries
idle fill (R105, R132). -/
def dataSlot (s : State) : State :=
  match creditWinner s, surplusWinner s with
  | some c, _ =>
    let s := { s with uplink := { s.uplink with lastCredit := c } }
    grant c (s.modChan c fun h => { h with credit := h.credit - Config.slotPrice })
  | none, some c => grant c { s with uplink := { s.uplink with lastSurplus := c } }
  | none, none => sendCell (idleFill s.link.state) s

/-! ### Undoing sends (R106) -/

/-- The SENDING record of a camera channel returns to QUEUED at the head of its live queue with cells sent 0. -/
def undoLive (k : Port) (s : State) : State :=
  match s.liveQueue k with
  | [] => s
  | n :: _ =>
    if (s.record n).state = .sending then
      (s.modRecord n fun r => { r with state := .queued, cellsSent := 0 }).modChan (chanOf k)
        fun c => { c with current := none }
    else s

/-- A recall in progress returns to the state before its first cell. -/
def undoRecall (s : State) : State :=
  match s.recalls.queue with
  | [] => s
  | e :: _ =>
    if e.started then
      ((setHeadStarted false s).modRecord e.record fun r => { r with cellsSent := 0 }).modChan recallChan
        fun c => { c with current := none }
    else s

/-- Every send in progress is undone (R106). -/
def undoSends (s : State) : State := undoRecall (eachPort undoLive s)

/-! ### Meanings -/

/-- ROUND_MARK (R69 to R74, R94, R95). -/
def execRoundMark (s : State) : Host.Outcome State Fault Refusal := .next (markRound (settleDue s))

/-- SLEW_STEP: a channel's slew countdown has run out at a round mark (R95, R96). -/
def execSlewStep (c : Chan) (s : State) : Host.Outcome State Fault Refusal := .next (s.modChan c Channel.stepIfDue)

/-- DATA_SLOT (R99), after the memory errors that have come about since the last (log entry 11). -/
def execDataSlot (errors : List MemError) (s : State) : Host.Outcome State Fault Refusal :=
  .next (dataSlot (errors.foldl spoilBlock s))

end Sys2Proof.Machine
end

