-- ==== Sys2Proof/Machine/Link.lean ====
section
/-! DEFINITION. The fibre link controller (chapter 7): windows, entering and leaving UP, recovery, restarting, control
slots; and the commands LOSS_OF_LIGHT, LIGHT_RETURN, WINDOW_END, RECOVERY_EXPIRY and CONTROL_SLOT. -/

namespace Sys2Proof.Machine

/-- Change the link controller's state. -/
def State.modLink (s : State) (f : Link → Link) : State := { s with link := f s.link }

/-- Every lock held by a master is released (R155). -/
def releaseLocks (m : Master) (s : State) : State :=
  { s with
    reqs :=
      { s.reqs with
        locks := Vector.ofFn fun l : Fin 13 => s.reqs.locks[l].filter fun e => e.holder ≠ m } }

/-- The link leaves UP (R127): sends are undone, the office's locks released, its answers dropped and counted, LINK_DOWN
set. -/
def leaveUp (s : State) : State :=
  let s := releaseLocks .office (undoSends s)
  let s := s.countGlobal .officeAnswersLost s.reqs.officeAnswers.length
  { s with reqs := { s.reqs with officeAnswers := [] } }.raise .linkDown

/-- The link enters UP (R125, R128). -/
def enterUp (s : State) : State :=
  (s.modLink fun l => { l with state := .up, goodRun := 0, badRun := 0, recovery := none }).raise .linkUp

/-- The link enters ALIGNING with its first window (R123, R124, R131). -/
def enterAligning (s : State) : State :=
  s.modLink fun l =>
    { l with state := .aligning, goodRun := 0, badRun := 0, window := some { valid := 0, failures := 0 } }

/-- The link enters RECOVERING from UP (R126, R128). -/
def enterRecovering (s : State) : State :=
  leaveUp (s.modLink fun l =>
    { l with state := .recovering, goodRun := 0, badRun := 0, recovery := some Config.recoveryLimit })

/-- A window is good when its valid-cell tally is at least 1 and its check-failure tally 4 or less (R124). -/
def Window.good (w : Window) : Bool := 1 ≤ w.valid && w.failures ≤ 4

/-- The judgement of a window acts by the link state (R125, R126, R128). -/
def judgeWindow (good : Bool) (s : State) : State :=
  match s.link.state with
  | .aligning =>
    if good = false then s.modLink fun l => { l with goodRun := 0 }
    else if 2 ≤ s.link.goodRun + 1 then enterUp s
    else s.modLink fun l => { l with goodRun := l.goodRun + 1 }
  | .up =>
    if good then s.modLink fun l => { l with badRun := 0 }
    else if faultCount s.link.faultCode ≤ s.link.badRun + 1 then enterRecovering s
    else s.modLink fun l => { l with badRun := l.badRun + 1 }
  | .recovering =>
    if good = false then s.modLink fun l => { l with goodRun := 0 }
    else if 2 ≤ s.link.goodRun + 1 then (enterUp s).countGlobal .linkRecovered 1
    else s.modLink fun l => { l with goodRun := l.goodRun + 1 }
  | .down | .halted => s

/-- The end of the window in progress: judged, and the next begins with both tallies at 0 (R124). -/
def endWindow (s : State) : State :=
  match s.link.window with
  | none => s
  | some w => judgeWindow w.good (s.modLink fun l => { l with window := some { valid := 0, failures := 0 } })

/-- Loss of light in any state but DOWN (R123). -/
def loseLight (s : State) : State :=
  if s.link.state = .down then s
  else
    let t := s.modLink fun l =>
      { l with state := .down, goodRun := 0, badRun := 0, window := none, recovery := none }
    if s.link.state = .up then leaveUp t else t

/-- RESTART_LINK from the line controller (R131): only a HALTED link is restarted; the answer carries the link state
once the request has been handled. -/
def handleRestartLink (m : Master) (s : State) : State × Reply :=
  match m with
  | .office => (s, refuse .wrongMaster)
  | .line =>
    let s := if s.link.state = .halted then enterAligning s else s
    (s, doneWith [byteOf s.link.state.code])

/-- The notice cell's payload: the snapshot of all flags, then the pending list (R164, R169). -/
def noticePayload (s : State) : List Byte := s.events.flags.bytes ++ s.events.noticePending.bytes

/-- A control slot (R133): the oldest office answer, else a notice, else idle fill; outside UP idle fill (R132). -/
def controlSlot (s : State) : State :=
  if s.link.state ≠ .up then sendCell (idleFill s.link.state) s
  else match s.reqs.officeAnswers with
    | a :: rest =>
      sendCell (controlCell .answer s.link.state a.encode)
        { s with reqs := { s.reqs with officeAnswers := rest } }
    | [] =>
      if s.events.noticePending.nonempty then
        sendCell (controlCell .notice s.link.state (noticePayload s))
          { s with events := { s.events with noticePending := .empty } }
      else sendCell (idleFill s.link.state) s

/-! ### Meanings -/

/-- LOSS_OF_LIGHT (R123). -/
def execLossOfLight (s : State) : Host.Outcome State Fault Refusal := .next (loseLight s)

/-- LIGHT_RETURN: the link enters ALIGNING from DOWN; in any other state nothing changes (R123). -/
def execLightReturn (s : State) : Host.Outcome State Fault Refusal :=
  .next (if s.link.state = .down then enterAligning s else s)

/-- WINDOW_END (R124). With no window in progress there is no end. -/
def execWindowEnd (s : State) : Host.Outcome State Fault Refusal := .next (endWindow s)

/-- RECOVERY_EXPIRY: the recovery timer has run out, the link enters HALTED and LINK_HALTED is set (R129). Outside RECOVERING
no timer runs. -/
def execRecoveryExpiry (s : State) : Host.Outcome State Fault Refusal :=
  .next (if s.link.state = .recovering ∧ ranOut s.link.recovery then
    (s.modLink fun l => { l with state := .halted, goodRun := 0, badRun := 0, window := none, recovery := none }).raise
      .linkHalted
  else s)

/-- CONTROL_SLOT (R133). -/
def execControlSlot (s : State) : Host.Outcome State Fault Refusal := .next (controlSlot s)

end Sys2Proof.Machine
end

