-- ==== Sys2Proof/Machine/Settings.lean ====
section
/-! DEFINITION. Settings records (section 8.4): reading every field (R145, R176), what a write that is taken does (R144,
R146 step 8), the tests before it (R146), and the lock table (section 8.5) with the command LOCK_EXPIRY. -/

namespace Sys2Proof.Machine

/-! ### Reading a field -/

/-- The current frame field: the port in byte 1 and the frame number in bytes 2–3; FFFFFFFFH while absent (R176). -/
def currentFrameWord (s : State) (c : Chan) : Word :=
  match (s.chan c).current with
  | none => 0xFFFFFFFF
  | some n => wordOf (65536 * (s.record n).port.val + (s.record n).frame.toNat)

/-- The cells sent field: 0 while the current record is absent (R107). -/
def currentCellsSent (s : State) (c : Chan) : Nat :=
  match (s.chan c).current with
  | none => 0
  | some n => (s.record n).cellsSent

/-- The queue length field: records in the live queue, or entries in the recall queue (R107). -/
def queueLength (s : State) (c : Chan) : Nat :=
  match portOf c with
  | some k => (s.liveQueue k).length
  | none => s.recalls.queue.length

/-- A mask record's set (R160). -/
def maskOf (s : State) (whose : Master) : FlagSet :=
  match whose with
  | .line => s.events.maskLine
  | .office => s.events.maskOffice

/-- A mask field as it travels: the global field as the 16-bit value of its two bytes, a port field as its byte (R172,
R176). -/
def maskWord (f : FlagSet) (field : Fin 9) : Word :=
  if h : field.val = 0 then (byteAt f.globalBytes 0 ++ byteAt f.globalBytes 1 : Half).setWidth 32
  else (f.portByte ⟨field.val - 1, by omega⟩).setWidth 32

/-- The value of a camera-port setting. -/
def readPortSetting (s : State) (k : Port) : PortSetting → Word
  | .enable => wordOf (bitCode ((s.sup k).state ≠ .disabled))
  | .warmupArmed => wordOf (bitCode (s.sup k).warmupArmed)
  | .warmupLength => wordOf (s.sup k).warmupLength.val
  | .tripThreshold => wordOf (s.sup k).threshold
  | .tripMode => wordOf (s.sup k).tripMode.code
  | .deglitch => wordOf (s.sup k).deglitch.val
  | .throttleTimeout => wordOf (s.sup k).throttleTimeout.val
  | .decimation => wordOf (s.sup k).decimation.val
  | .damagedPolicy => wordOf (s.cam k).policy.code
  | .triggerDelay => wordOf s.shots.triggerDelay[k]

/-- The value of a channel setting. -/
def readChanSetting (s : State) (c : Chan) : ChanSetting → Word
  | .target => wordOf (s.chan c).target
  | .startRate => wordOf (s.chan c).startRate
  | .ceiling => wordOf (s.chan c).ceiling
  | .slewCode => wordOf (s.chan c).slewCode.val
  | .window => wordOf (s.chan c).window
  | .asymmetric => wordOf (onOffCode (s.chan c).asymmetric)
  | .surplusEnable => wordOf (onOffCode (s.chan c).surplus)

/-- The value of a setting as it stands (R145). -/
def readSetting (s : State) : Setting → Word
  | .port k f => readPortSetting s k f
  | .chan c f => readChanSetting s c f
  | .evictSent => wordOf (onOffCode s.store.evictSent)
  | .deadline => wordOf s.shots.deadline
  | .defaultVerdict => wordOf s.shots.defaultVerdict.code
  | .pinMask n => s.shots.pinMasks[n].setWidth 32
  | .faultCode => wordOf s.link.faultCode.val
  | .lineWatchdog => wordOf s.shots.watchdogPeriod.val
  | .darkMask => s.dark.mask.setWidth 32
  | .darkTestTime => wordOf s.dark.testTime.val
  | .mask whose f => maskWord (maskOf s whose) f

/-- The value of a camera-port status field. -/
def readPortStatus (s : State) (k : Port) : PortStatus → Word
  | .supervisionState => wordOf (s.sup k).state.code
  | .lastLoad => wordOf (s.sup k).lastLoad
  | .overCount => wordOf (s.sup k).overCount
  | .calmCount => wordOf (s.sup k).calmCount
  | .decimationCount => wordOf (s.sup k).decimationCount
  | .blankingRemaining => wordOf (s.sup k).blanking
  | .receiveState => wordOf (s.cam k).receive.code
  | .stagedLines => wordOf (s.cam k).staging.length
  | .lastFrameFlags => (s.cam k).lastFlags.setWidth 32
  | .lastFrameNumber => (s.cam k).lastIssued.setWidth 32
  | .receiptMark => s.recalls.marks[k].setWidth 32

/-- The value of a channel status field. -/
def readChanStatus (s : State) (c : Chan) : ChanStatus → Word
  | .rate => wordOf (s.chan c).rate
  | .credit => wordOf (s.chan c).credit
  | .slewCountdown => wordOf (s.chan c).countdown
  | .queueLength => wordOf (queueLength s c)
  | .currentFrame => currentFrameWord s c
  | .cellsSent => wordOf (currentCellsSent s c)

/-- The value of a status field: the owner's state as it stands (R145). -/
def readStatus (s : State) : StatusField → Word
  | .port k f => readPortStatus s k f
  | .chan c f => readChanStatus s c f
  | .storeState => wordOf s.store.phase.code
  | .memorySize => wordOf (memoryGiB s.store.memSize)
  | .pages => wordOf (pagesOf s.store.memSize)
  | .freePages => wordOf s.store.freePages.length
  | .freeRecords => wordOf s.store.freeRecords.length
  | .heldRecords => wordOf (heldCount s)
  | .evictableRecords => wordOf (evictableCount s)
  | .openShots => wordOf s.shots.shots.length
  | .nextShotNumber => s.shots.next.setWidth 32
  | .linkState => wordOf s.link.state.code
  | .grade => wordOf s.link.grade.code
  | .goodRun => wordOf s.link.goodRun
  | .badRun => wordOf s.link.badRun
  | .recoveryRemaining => wordOf (timerMs s.link.recovery)
  | .queuedAnswers => wordOf s.reqs.officeAnswers.length
  | .light => wordOf (if s.link.state = .down then 1 else 0)
  | .lineState => wordOf s.shots.lineState.code
  | .darkPassState => wordOf s.dark.pass.code
  | .darkCurrentPort => wordOf s.dark.current.val
  | .lockHolder l => wordOf (holderCode (s.lock l))
  | .lockRemaining l => wordOf (timerMs ((s.lock l).map Lock.remaining))

/-- The value of a field. -/
def readField (s : State) : FieldRef → Word
  | .setting x => readSetting s x
  | .status x => readStatus s x

/-! ### Writing a field -/

/-- The position an enumeration value that passed R146 step 6 names. -/
def position (n : Nat) (h : 0 < n) (v : Word) : Fin n := ⟨v.toNat % n, Nat.mod_lt _ h⟩

/-- The line watchdog (re)starts with the full period of its field while the line is ATTENDED; OFF leaves it stopped
(R38). -/
def restartWatchdog (s : State) : State :=
  { s with
    shots :=
      { s.shots with
        watchdog := match s.shots.lineState with
          | .attended => watchdogTime s.shots.watchdogPeriod
          | .silent => none } }

/-- A write of warm-up armed (R67): 1 is stored only while DISABLED; 0 is always taken and ends a warm-up. -/
def writeWarmupArmed (k : Port) (v : Word) (s : State) : State :=
  if v = 0 then
    let s := s.modSup k fun u => { u with warmupArmed := false }
    if (s.sup k).state = .warmup then endWarmup k s else s
  else if (s.sup k).state = .disabled then s.modSup k fun u => { u with warmupArmed := true }
  else s

/-- A write of enable (R66): a write of the value the field already holds changes nothing. -/
def writeEnable (k : Port) (v : Word) (s : State) : State :=
  if v = 0 then if (s.sup k).state = .disabled then s else disablePort k s
  else if (s.sup k).state = .disabled then enablePort k s else s

/-- A target write that is taken (R89, R90): on a camera channel it also starts trip blanking (R70). -/
def writeTarget (c : Chan) (v : Word) (s : State) : State :=
  let t := min v.toNat (gradeMaximum s.link.grade)
  let s := s.modChan c fun h => h.writeTarget t
  match portOf c with
  | none => s
  | some k => startBlanking k s

/-- A write of a camera-port setting that is taken (R19, R22, R66, R67, R80, R81). -/
def writePortSetting (k : Port) (f : PortSetting) (v : Word) (s : State) : State :=
  match f with
  | .enable => writeEnable k v s
  | .warmupArmed => writeWarmupArmed k v s
  | .warmupLength => s.modSup k fun u => { u with warmupLength := position 2 (by decide) v }
  | .tripThreshold =>
    s.modSup k fun u => { u with threshold := min v.toNat 255, overCount := 0, tripDue := false }
  | .tripMode => s.modSup k fun u => { u with tripMode := .ofCode v.toNat }
  | .deglitch => s.modSup k fun u => { u with deglitch := position 4 (by decide) v }
  | .throttleTimeout => s.modSup k fun u => { u with throttleTimeout := position 4 (by decide) v }
  | .decimation => s.modSup k fun u => { u with decimation := position 4 (by decide) v }
  | .damagedPolicy => s.modCam k fun c => { c with policy := .ofCode v.toNat }
  | .triggerDelay =>
    { s with
      shots := { s.shots with triggerDelay := s.shots.triggerDelay.set k (min v.toNat 65535) } }

/-- A write of a channel setting that is taken (R89, R90, R92, R93). -/
def writeChanSetting (c : Chan) (f : ChanSetting) (v : Word) (s : State) : State :=
  match f with
  | .target => writeTarget c v s
  | .startRate => s.modChan c fun h => { h with startRate := min v.toNat (gradeMaximum s.link.grade) }
  | .ceiling => s.modChan c fun h => h.writeCeiling (max 1 (min v.toNat 4095))
  | .slewCode => s.modChan c fun h => h.writeSlewCode (position 8 (by decide) v)
  | .window => s.modChan c fun h => h.writeWindow (min v.toNat 255)
  | .asymmetric => s.modChan c fun h => h.writeAsymmetric (v = 0)
  | .surplusEnable => s.modChan c fun h => { h with surplus := v = 0 }

/-- A mask field's new set, trimmed to the flags there are (R144, R160, R176). -/
def FlagSet.writeMask (f : FlagSet) (field : Fin 9) (v : Word) : FlagSet :=
  if h : field.val = 0 then
    { f with global := (v.extractLsb' 0 8 ++ v.extractLsb' 8 8 : Half).setWidth 10 }
  else { f with ports := f.ports.set (field.val - 1) (v.setWidth 7) (by omega) }

/-- A mask write (R161): MASK_LINE decides ATTN from then on; the notice-pending set is left as it stands. -/
def writeMask (whose : Master) (field : Fin 9) (v : Word) (s : State) : State :=
  match whose with
  | .line => { s with events := { s.events with maskLine := s.events.maskLine.writeMask field v } }
  | .office => { s with events := { s.events with maskOffice := s.events.maskOffice.writeMask field v } }

/-- A write that is taken: numbers clamped, sets trimmed, the owner acting as the field's rule states (R144, R146 step
8). -/
def writeSetting (x : Setting) (v : Word) (s : State) : State :=
  match x with
  | .port k f => writePortSetting k f v s
  | .chan c f => writeChanSetting c f v s
  | .evictSent => { s with store := { s.store with evictSent := v = 0 } }
  | .deadline => { s with shots := { s.shots with deadline := max 1 (min v.toNat 4095) } }
  | .defaultVerdict => { s with shots := { s.shots with defaultVerdict := .ofCode v.toNat } }
  | .pinMask n => { s with shots := { s.shots with pinMasks := s.shots.pinMasks.set n (v.setWidth 8) } }
  | .faultCode => s.modLink fun l => { l with faultCode := position 4 (by decide) v }
  | .lineWatchdog =>
    restartWatchdog { s with shots := { s.shots with watchdogPeriod := position 4 (by decide) v } }
  | .darkMask => startDarkPass { s with dark := { s.dark with mask := v.setWidth 8 } }
  | .darkTestTime => { s with dark := { s.dark with testTime := position 4 (by decide) v } }
  | .mask whose f => writeMask whose f v s

/-! ### The tests before a write -/

/-- A mask record written by the master it does not serve (R147). -/
def wrongMask (m : Master) (record : Byte) : Bool :=
  match maskRecord record with
  | none => false
  | some whose => whose ≠ m

/-- A target write to the channel of a TRIPPED port (R146 step 7). -/
def targetBarred (x : Setting) (s : State) : Bool :=
  match x with
  | .chan c .target =>
    match portOf c with
    | none => false
    | some k => (s.sup k).state = .tripped
  | _ => false

/-- Steps 6 and 7 of R146, which WRITE_UNLOCK shares (R152 step 4): the reason a setting's write is refused. -/
def valueRefused (x : Setting) (v : Word) (s : State) : Option Reason :=
  if x.badValue v then some .badValue
  else if targetBarred x s then some .portTripped
  else none

/-- A record locked by the other master (R151). -/
def lockedByOther (m : Master) (record : Byte) (s : State) : Bool :=
  match lockableRecord record with
  | none => false
  | some l => (s.lock l).any fun e => e.holder ≠ m

/-- A record's lock held by this master. -/
def lockHeldBy (m : Master) (l : Fin 13) (s : State) : Bool := (s.lock l).any fun e => e.holder = m

/-! ### Requests on settings -/

/-- READ (R145). -/
def handleRead (record field : Byte) (s : State) : State × Reply :=
  match resolveField record field with
  | .error r => (s, refuse r)
  | .ok f => (s, doneWith (be32 (readField s f)))

/-- WRITE (R146), stopping at the first step that answers it. -/
def handleWrite (m : Master) (record field : Byte) (v : Word) (s : State) : State × Reply :=
  match resolveField record field with
  | .error r => (s, refuse r)
  | .ok f =>
    if wrongMask m record then (s, refuse .wrongMaster)
    else match f with
      | .status _ => (s, refuse .readOnly)
      | .setting x =>
        if lockedByOther m record s then (s, retry)
        else match valueRefused x v s with
          | some r => (s, refuse r)
          | none => (writeSetting x v s, doneWith (be32 (readSetting (writeSetting x v s) x)))

/-- LOCK_READ (R150): a free record is locked, the sender's own lock renewed; the value is read after that. -/
def handleLockRead (m : Master) (record field : Byte) (s : State) : State × Reply :=
  match lockableRecord record with
  | none => (s, refuse .noSuchRecord)
  | some l =>
    match resolveField record field with
    | .error r => (s, refuse r)
    | .ok f =>
      if lockedByOther m record s then (s, retry)
      else
        let s := s.setLock l (some { holder := m, remaining := Config.lockLife })
        (s, doneWith (be32 (readField s f)))

/-- WRITE_UNLOCK (R152). -/
def handleWriteUnlock (m : Master) (record field : Byte) (v : Word) (s : State) : State × Reply :=
  match lockableRecord record with
  | none => (s, refuse .noSuchRecord)
  | some l =>
    match resolveField record field with
    | .error r => (s, refuse r)
    | .ok f =>
      if lockHeldBy m l s = false then (s, late)
      else match f with
        | .status _ => (s, refuse .readOnly)
        | .setting x =>
          match valueRefused x v s with
          | some r => (s, refuse r)
          | none =>
            ((writeSetting x v s).setLock l none, doneWith (be32 (readSetting (writeSetting x v s) x)))

/-- UNLOCK (R153). -/
def handleUnlock (m : Master) (record : Byte) (s : State) : State × Reply :=
  match lockableRecord record with
  | none => (s, refuse .noSuchRecord)
  | some l => (if lockHeldBy m l s then s.setLock l none else s, doneWith [])

/-! ### Meanings -/

/-- LOCK_EXPIRY: the lock's timer has run out, the holder becomes NONE and the timer stops (R154). A free record has no
timer; one granted or renewed since keeps its lock, for the expiry does not happen at the old time. -/
def execLockExpiry (l : Fin 13) (s : State) : Host.Outcome State Fault Refusal :=
  .next (if ranOut ((s.lock l).map Lock.remaining) then s.setLock l none else s)

end Sys2Proof.Machine
end

