-- ==== Sys2Proof/Machine/Requests.lean ====
section
/-! DEFINITION. Request handling (chapters 8 and 9): the dispatch of request kinds, the line request port, office requests,
the line watchdog, CLEAR_EVENTS and READ_COUNTS; and the commands that are requests, transfers and return-lane cells. -/

namespace Sys2Proof.Machine

/-! ### CLEAR_FAULT, CLEAR_EVENTS, READ_COUNTS -/

/-- CLEAR_FAULT from either master (R78). -/
def handleClearFault (port : Byte) (s : State) : State × Reply :=
  match portOfByte port with
  | none => (s, refuse .notFound)
  | some k => (clearFault k s, doneWith [])

/-- CLEAR_EVENTS from either master (R159): the named flags become CLEAR; the notice-pending set is left as it stands. -/
def handleClearEvents (flags : List Byte) (s : State) : State × Reply :=
  ({ s with events := { s.events with flags := s.events.flags.without (.ofBytes flags) } }, doneWith [])

/-- READ_COUNTS from either master (R166): scope 0 is GLOBAL, 1–8 are PORT0–PORT7. -/
def handleReadCounts (scope : Byte) (s : State) : State × Reply :=
  if scope = 0 then (s, doneWith (s.globalCountBytes ++ s.events.flags.globalBytes))
  else match portOfByte (scope - 1) with
    | none => (s, refuse .badValue)
    | some k => (s, doneWith (s.portCountBytes k ++ [s.events.flags.portByte k]))

/-! ### Request kinds (R142) -/

/-- Handle a request from a master: its kind, its master, then its own rule (R142). A RECEIPT from the office forms no
answer; the reply it gives here is not sent (R115, R140). -/
def handle (m : Master) (req : Request) (s : State) : State × Reply :=
  match req with
  | .read record field => handleRead record field s
  | .write record field value => handleWrite m record field value s
  | .lockRead record field => handleLockRead m record field s
  | .writeUnlock record field value => handleWriteUnlock m record field value s
  | .unlock record => handleUnlock m record s
  | .trigger mask keep tagPresent tag => handleTrigger m mask keep tagPresent tag s
  | .tag shot value => handleTag m shot value s
  | .verdict shot value => handleVerdict m shot value s
  | .queryFrame port frame => handleQueryFrame port frame s
  | .queryShot shot => handleQueryShot shot s
  | .recallFrame port frame => handleRecall m port frame s
  | .receipt port mark =>
    match m with
    | .line => (s, refuse .wrongMaster)
    | .office => (takeReceipt port mark s, doneWith [])
  | .hold port frame => handleSetHold m true port frame s
  | .unhold port frame => handleSetHold m false port frame s
  | .releaseKeep port frame => handleReleaseKeep m port frame s
  | .clearEvents flags => handleClearEvents flags s
  | .clearFault port => handleClearFault port s
  | .readCounts scope => handleReadCounts scope s
  | .restartLink => handleRestartLink m s
  | .flushStore => handleFlush m s
  | .unknown _ => (s, refuse .badValue)

/-! ### The line request port -/

/-- A request taken from the line request port restarts the line watchdog, or first ends the line's silence (R38, R40). -/
def hearLine (s : State) : State :=
  restartWatchdog { s with shots := { s.shots with lineState := .attended } }

/-- Place an answer in the line answer buffer; an answer still there is lost, with ANSWER_LOST (R139 step 2). -/
def placeLineAnswer (a : Answer) (s : State) : State :=
  let s := if s.reqs.lineBuffer.isSome then s.raise .answerLost else s
  { s with
    reqs :=
      { s.reqs with
        lineBuffer := some a
        transfer := s.reqs.transfer.map fun t => { t with inBuffer := false } } }

/-- A request of the line controller is taken, handled and answered (R138, R139 step 2). -/
def takeLineRequest (ref : Half) (req : Request) (s : State) : State :=
  let (s, reply) := handle .line req (hearLine s)
  placeLineAnswer (answerTo ref (requestKind req) reply) s

/-- The answer a transfer that begins now shifts out: the one in the buffer, or a NONE record (R139). -/
def beginTransfer (s : State) : State :=
  let t : Transfer :=
    { answer := s.reqs.lineBuffer.getD noneAnswer, inBuffer := s.reqs.lineBuffer.isSome }
  { s with reqs := { s.reqs with transfer := some t } }

/-- The release of chip select ends transfer `t`, which shifted `count` bytes each way: an answer read whole leaves the
buffer, if the buffer still holds it (R139 step 1). -/
def endTransfer (t : Transfer) (count : Nat) (s : State) : State :=
  { s with
    reqs :=
      { s.reqs with
        transfer := none
        shiftedOut := t.answer.encode.take count
        lineBuffer :=
          if t.inBuffer ∧ t.answer.encode.length ≤ count then none else s.reqs.lineBuffer } }

/-- A transfer on the line request port ends with these bytes shifted in (R138, R139). A release with no transfer under
way is the release of one that began with it (log entry 8). -/
def lineTransfer (mosi : List Byte) (s : State) : State :=
  let s := if s.reqs.transfer = none then beginTransfer s else s
  let s := match s.reqs.transfer with
    | none => s
    | some t => endTransfer t mosi.length s
  match decodeRequest mosi with
  | none => s
  | some (ref, req) => takeLineRequest ref req s

/-! ### Office requests -/

/-- Whether an office request forms an answer: every one but a RECEIPT (R140). -/
def formsAnswer (req : Request) : Bool :=
  match req with
  | .receipt _ _ => false
  | .read _ _ | .write _ _ _ | .lockRead _ _ | .writeUnlock _ _ _ | .unlock _ | .trigger _ _ _ _ | .tag _ _
  | .verdict _ _ | .queryFrame _ _ | .queryShot _ | .recallFrame _ _ | .hold _ _ | .unhold _ _ | .releaseKeep _ _
  | .clearEvents _ | .clearFault _ | .readCounts _ | .restartLink | .flushStore | .unknown _ => true

/-- A request of the quality office is taken and handled, and its answer joins the tail of the office answer queue
(R140). -/
def answerOffice (ref : Half) (req : Request) (s : State) : State :=
  let (s, reply) := handle .office req s
  if formsAnswer req then
    { s with
      reqs := { s.reqs with officeAnswers := s.reqs.officeAnswers ++ [answerTo ref (requestKind req) reply] } }
  else s

/-- A request cell handed on while the link is UP: discarded unread at a full answer queue, with OFFICE_REQ_DROPPED;
otherwise taken, unless it holds no request (R135, R174). -/
def officeRequestCell (req : Option (Half × Request)) (s : State) : State :=
  if Config.officeAnswerMax ≤ s.reqs.officeAnswers.length then s.raise .officeReqDropped
  else match req with
    | none => s
    | some (ref, req) => answerOffice ref req s

/-- A receipt cell handed on while the link is UP: applied when its record is a RECEIPT of length 7, else discarded
(R135). -/
def receiptCell (req : Option (Half × Request)) (s : State) : State :=
  match req with
  | some (_, .receipt port mark) => takeReceipt port mark s
  | _ => s

/-- A return-lane cell arrives (R124, R135): tallied against its header check while a window is in progress, then handed
on by its kind in UP. -/
def returnCell (cell : List Byte) (s : State) : State :=
  match s.link.window with
  | none => s
  | some w =>
    if headerValid cell = false then
      s.modLink fun l => { l with window := some { w with failures := w.failures + 1 } }
    else
      let s := s.modLink fun l => { l with window := some { w with valid := w.valid + 1 } }
      if s.link.state = .up then
        match returnKind cell with
        | .request => officeRequestCell (decodeRequest (returnPayload cell)) s
        | .receipt => receiptCell (decodeRequest (returnPayload cell)) s
        | .other => s
      else s

/-! ### A request as a command of its own -/

/-- A request arrives from a master over its own path (log entry 7). From the line controller it is taken, as at the
release of a transfer that carried it (R139 step 2); from the office it is taken only in UP and, unless it is discarded,
with room in the answer queue (R127, R135). DESIGN CHOICE: an office request row stands for the request alone; the cell that
brought it is not tested and leaves the tallies of the window in progress as they stand (R124; log entry 7). RETURN_CELL is
the row that tallies its cell. -/
def arrive (m : Master) (ref : Half) (req : Request) (s : State) : State :=
  match m with
  | .line => takeLineRequest ref req s
  | .office => if s.link.state = .up then officeRequestCell (some (ref, req)) s else s

/-! ### The line watchdog -/

/-- The expiry of a running line watchdog (R39): LINE_SILENT, the line's locks released, its answer buffer emptied. -/
def silenceLine (s : State) : State :=
  let s := { s with shots := { s.shots with lineState := .silent, watchdog := none } }
  let s := releaseLocks .line (s.raise .lineSilent)
  { s with
    reqs :=
      { s.reqs with
        lineBuffer := none
        transfer := s.reqs.transfer.map fun t => { t with inBuffer := false } } }

/-! ### Meanings -/

/-- LINE_WATCHDOG_EXPIRY (R39). A watchdog that is stopped, or was restarted and has time left, does not expire. -/
def execLineWatchdogExpiry (s : State) : Host.Outcome State Fault Refusal :=
  .next (if ranOut s.shots.watchdog then silenceLine s else s)

/-- CHIP_SELECT_ASSERTION: a transfer begins and its answer is fixed (R139); transfers never overlap (R138). -/
def execChipSelectAssertion (s : State) : Host.Outcome State Fault Refusal :=
  .next (if s.reqs.transfer = none then beginTransfer s else s)

/-- LINE_TRANSFER (R138, R139). -/
def execLineTransfer (mosi : List Byte) (s : State) : Host.Outcome State Fault Refusal := .next (lineTransfer mosi s)

/-- RETURN_CELL (R124, R135). -/
def execReturnCell (bytes : List Byte) (s : State) : Host.Outcome State Fault Refusal := .next (returnCell bytes s)

/-- UNKNOWN_KIND_REQUEST (R142 step 1, R174 step 1). -/
def execUnknownKindRequest (m : Master) (ref : Half) (kind : Byte) (s : State) : Host.Outcome State Fault Refusal :=
  .next (arrive m ref (.unknown kind) s)

/-- READ (R145). -/
def execRead (m : Master) (ref : Half) (record field : Byte) (s : State) : Host.Outcome State Fault Refusal :=
  .next (arrive m ref (.read record field) s)

/-- WRITE (R146): of any field, those with a row of their own included. -/
def execWrite (m : Master) (ref : Half) (record field : Byte) (value : Word) (s : State) :
    Host.Outcome State Fault Refusal :=
  .next (arrive m ref (.write record field value) s)

/-- LOCK_READ (R150). -/
def execLockRead (m : Master) (ref : Half) (record field : Byte) (s : State) : Host.Outcome State Fault Refusal :=
  .next (arrive m ref (.lockRead record field) s)

/-- WRITE_UNLOCK (R152). -/
def execWriteUnlock (m : Master) (ref : Half) (record field : Byte) (value : Word) (s : State) :
    Host.Outcome State Fault Refusal :=
  .next (arrive m ref (.writeUnlock record field value) s)

/-- UNLOCK (R153). -/
def execUnlock (m : Master) (ref : Half) (record : Byte) (s : State) : Host.Outcome State Fault Refusal :=
  .next (arrive m ref (.unlock record) s)

/-- ENABLE_WRITE (R66): a write of CHk field 01H. -/
def execEnableWrite (m : Master) (ref : Half) (k : Port) (value : Word) (s : State) :
    Host.Outcome State Fault Refusal :=
  .next (arrive m ref (.write (byteOf k.val) 0x01 value) s)

/-- WARMUP_ARMED_WRITE (R67): a write of CHk field 02H. -/
def execWarmupArmedWrite (m : Master) (ref : Half) (k : Port) (value : Word) (s : State) :
    Host.Outcome State Fault Refusal :=
  .next (arrive m ref (.write (byteOf k.val) 0x02 value) s)

/-- TRIP_THRESHOLD_WRITE (R80): a write of CHk field 04H. -/
def execTripThresholdWrite (m : Master) (ref : Half) (k : Port) (value : Word) (s : State) :
    Host.Outcome State Fault Refusal :=
  .next (arrive m ref (.write (byteOf k.val) 0x04 value) s)

/-- TARGET_WRITE (R90): a write of CHc field 10H. -/
def execTargetWrite (m : Master) (ref : Half) (c : Chan) (value : Word) (s : State) :
    Host.Outcome State Fault Refusal :=
  .next (arrive m ref (.write (byteOf c.val) 0x10 value) s)

/-- CEILING_WRITE (R92): a write of CHc field 12H. -/
def execCeilingWrite (m : Master) (ref : Half) (c : Chan) (value : Word) (s : State) :
    Host.Outcome State Fault Refusal :=
  .next (arrive m ref (.write (byteOf c.val) 0x12 value) s)

/-- SLEW_CODE_WRITE (R93): a write of CHc field 13H. -/
def execSlewCodeWrite (m : Master) (ref : Half) (c : Chan) (value : Word) (s : State) :
    Host.Outcome State Fault Refusal :=
  .next (arrive m ref (.write (byteOf c.val) 0x13 value) s)

/-- DARK_MASK_WRITE (R83): a write of MONITOR field 02H. -/
def execDarkMaskWrite (m : Master) (ref : Half) (value : Word) (s : State) : Host.Outcome State Fault Refusal :=
  .next (arrive m ref (.write 0x0C 0x02 value) s)

/-- LINE_WATCHDOG_WRITE (R38): a write of MONITOR field 01H. -/
def execLineWatchdogWrite (m : Master) (ref : Half) (value : Word) (s : State) : Host.Outcome State Fault Refusal :=
  .next (arrive m ref (.write 0x0C 0x01 value) s)

/-- The record number of a mask record (R175). -/
def maskRecordNumber (whose : Master) : Byte :=
  match whose with
  | .line => 0x0D
  | .office => 0x0E

/-- MASK_WRITE (R161): a write of a field of MASK_LINE or MASK_OFFICE. -/
def execMaskWrite (m : Master) (ref : Half) (whose : Master) (field : Fin 9) (value : Word) (s : State) :
    Host.Outcome State Fault Refusal :=
  .next (arrive m ref (.write (maskRecordNumber whose) (byteOf (field.val + 1)) value) s)

/-- TRIGGER (R26). -/
def execTrigger (m : Master) (ref : Half) (mask keep tagPresent : Byte) (tag : Word) (s : State) :
    Host.Outcome State Fault Refusal :=
  .next (arrive m ref (.trigger mask keep tagPresent tag) s)

/-- TAG (R31). -/
def execTag (m : Master) (ref shot : Half) (value : Word) (s : State) : Host.Outcome State Fault Refusal :=
  .next (arrive m ref (.tag shot value) s)

/-- QUERY_SHOT (R32). -/
def execQueryShot (m : Master) (ref shot : Half) (s : State) : Host.Outcome State Fault Refusal :=
  .next (arrive m ref (.queryShot shot) s)

/-- VERDICT (R34). -/
def execVerdict (m : Master) (ref shot : Half) (value : Byte) (s : State) : Host.Outcome State Fault Refusal :=
  .next (arrive m ref (.verdict shot value) s)

/-- QUERY_FRAME (R63). -/
def execQueryFrame (m : Master) (ref : Half) (port : Byte) (frame : Half) (s : State) :
    Host.Outcome State Fault Refusal :=
  .next (arrive m ref (.queryFrame port frame) s)

/-- RECALL (R109). -/
def execRecall (m : Master) (ref : Half) (port : Byte) (frame : Half) (s : State) :
    Host.Outcome State Fault Refusal :=
  .next (arrive m ref (.recallFrame port frame) s)

/-- RECEIPT (R115): from the office in a receipt cell, which needs no room in the answer queue and forms no answer
(R135); from the line controller it is refused WRONG_MASTER. DESIGN CHOICE: the row leaves the tallies of the window in
progress as they stand, as every office request row does (R124; log entry 7). -/
def execReceipt (m : Master) (ref : Half) (port : Byte) (mark : Half) (s : State) :
    Host.Outcome State Fault Refusal :=
  .next (match m with
    | .line => takeLineRequest ref (.receipt port mark) s
    | .office => if s.link.state = .up then takeReceipt port mark s else s)

/-- HOLD (R118). -/
def execHold (m : Master) (ref : Half) (port : Byte) (frame : Half) (s : State) : Host.Outcome State Fault Refusal :=
  .next (arrive m ref (.hold port frame) s)

/-- UNHOLD (R118). -/
def execUnhold (m : Master) (ref : Half) (port : Byte) (frame : Half) (s : State) :
    Host.Outcome State Fault Refusal :=
  .next (arrive m ref (.unhold port frame) s)

/-- RELEASE_KEEP (R119). -/
def execReleaseKeep (m : Master) (ref : Half) (port : Byte) (frame : Half) (s : State) :
    Host.Outcome State Fault Refusal :=
  .next (arrive m ref (.releaseKeep port frame) s)

/-- FLUSH_STORE (R60, R61). -/
def execFlushStore (m : Master) (ref : Half) (s : State) : Host.Outcome State Fault Refusal :=
  .next (arrive m ref .flushStore s)

/-- CLEAR_EVENTS (R159). -/
def execClearEvents (m : Master) (ref : Half) (flags : List Byte) (s : State) : Host.Outcome State Fault Refusal :=
  .next (arrive m ref (.clearEvents flags) s)

/-- CLEAR_FAULT (R78). -/
def execClearFault (m : Master) (ref : Half) (port : Byte) (s : State) : Host.Outcome State Fault Refusal :=
  .next (arrive m ref (.clearFault port) s)

/-- READ_COUNTS (R166). -/
def execReadCounts (m : Master) (ref : Half) (scope : Byte) (s : State) : Host.Outcome State Fault Refusal :=
  .next (arrive m ref (.readCounts scope) s)

/-- RESTART_LINK (R131). -/
def execRestartLink (m : Master) (ref : Half) (s : State) : Host.Outcome State Fault Refusal :=
  .next (arrive m ref .restartLink s)

/-- POWER_ON_RESET (R59 and each chapter's reset values): every block takes its reset values with the straps sampled; the
waiting commands and the model's own draw counter are not the device's and stay. -/
def execPowerOnReset (straps : Straps) (light : Bool) (s : State) : Host.Outcome State Fault Refusal :=
  .next { State.powerOn straps light with draws := s.draws, pending := s.pending }

end Sys2Proof.Machine
end

