-- ==== Sys2Proof/Machine/Dispatch.lean ====
section
/-! DEFINITION. The meaning of every command: one arm per constructor of Instr, each one call of its own definition. -/

namespace Sys2Proof.Machine

def exec (i : Instr) (s : State) : Host.Outcome State Fault Refusal :=
  match i with
  | .powerOnReset straps light => Sys2Proof.Machine.execPowerOnReset straps light s
  | .storeInitEnd => Sys2Proof.Machine.execStoreInitEnd s
  | .laneOpen k counter width height bpp => Sys2Proof.Machine.execOpen k counter width height bpp s
  | .laneLine k index length check payload => Sys2Proof.Machine.execLine k index length check payload s
  | .laneClose k count => Sys2Proof.Machine.execClose k count s
  | .laneUnrecognized k msg => Sys2Proof.Machine.execUnrecognized k msg s
  | .lineWriteEnd k => Sys2Proof.Machine.execLineWriteEnd k s
  | .pageRequest k => Sys2Proof.Machine.execPageRequest k s
  | .trigger m ref mask keep tagPresent tag => Sys2Proof.Machine.execTrigger m ref mask keep tagPresent tag s
  | .triggerEdge pin => Sys2Proof.Machine.execTriggerEdge pin s
  | .triggerSlotExpiry k => Sys2Proof.Machine.execTriggerSlotExpiry k s
  | .tag m ref shot value => Sys2Proof.Machine.execTag m ref shot value s
  | .queryShot m ref shot => Sys2Proof.Machine.execQueryShot m ref shot s
  | .verdict m ref shot value => Sys2Proof.Machine.execVerdict m ref shot value s
  | .deadlineExpiry shot => Sys2Proof.Machine.execDeadlineExpiry shot s
  | .lineWatchdogExpiry => Sys2Proof.Machine.execLineWatchdogExpiry s
  | .lineTransfer mosi => Sys2Proof.Machine.execLineTransfer mosi s
  | .unknownKindRequest m ref kind => Sys2Proof.Machine.execUnknownKindRequest m ref kind s
  | .read m ref record field => Sys2Proof.Machine.execRead m ref record field s
  | .write m ref record field value => Sys2Proof.Machine.execWrite m ref record field value s
  | .lockRead m ref record field => Sys2Proof.Machine.execLockRead m ref record field s
  | .writeUnlock m ref record field value => Sys2Proof.Machine.execWriteUnlock m ref record field value s
  | .unlock m ref record => Sys2Proof.Machine.execUnlock m ref record s
  | .lockExpiry record => Sys2Proof.Machine.execLockExpiry record s
  | .enableWrite m ref k value => Sys2Proof.Machine.execEnableWrite m ref k value s
  | .warmupArmedWrite m ref k value => Sys2Proof.Machine.execWarmupArmedWrite m ref k value s
  | .warmupExpiry k => Sys2Proof.Machine.execWarmupExpiry k s
  | .tripThresholdWrite m ref k value => Sys2Proof.Machine.execTripThresholdWrite m ref k value s
  | .roundMark => Sys2Proof.Machine.execRoundMark s
  | .slewStep c => Sys2Proof.Machine.execSlewStep c s
  | .trip k => Sys2Proof.Machine.execTrip k s
  | .calmReturn k => Sys2Proof.Machine.execCalmReturn k s
  | .throttleTimeout k => Sys2Proof.Machine.execThrottleTimeout k s
  | .clearFault m ref port => Sys2Proof.Machine.execClearFault m ref port s
  | .darkMaskWrite m ref value => Sys2Proof.Machine.execDarkMaskWrite m ref value s
  | .darkTestExpiry => Sys2Proof.Machine.execDarkTestExpiry s
  | .lineWatchdogWrite m ref value => Sys2Proof.Machine.execLineWatchdogWrite m ref value s
  | .targetWrite m ref c value => Sys2Proof.Machine.execTargetWrite m ref c value s
  | .ceilingWrite m ref c value => Sys2Proof.Machine.execCeilingWrite m ref c value s
  | .slewCodeWrite m ref c value => Sys2Proof.Machine.execSlewCodeWrite m ref c value s
  | .maskWrite m ref whose field value => Sys2Proof.Machine.execMaskWrite m ref whose field value s
  | .dataSlot errors => Sys2Proof.Machine.execDataSlot errors s
  | .controlSlot => Sys2Proof.Machine.execControlSlot s
  | .recallFrame m ref port frame => Sys2Proof.Machine.execRecall m ref port frame s
  | .receipt m ref port mark => Sys2Proof.Machine.execReceipt m ref port mark s
  | .hold m ref port frame => Sys2Proof.Machine.execHold m ref port frame s
  | .unhold m ref port frame => Sys2Proof.Machine.execUnhold m ref port frame s
  | .releaseKeep m ref port frame => Sys2Proof.Machine.execReleaseKeep m ref port frame s
  | .queryFrame m ref port frame => Sys2Proof.Machine.execQueryFrame m ref port frame s
  | .flushStore m ref => Sys2Proof.Machine.execFlushStore m ref s
  | .clearEvents m ref flags => Sys2Proof.Machine.execClearEvents m ref flags s
  | .readCounts m ref scope => Sys2Proof.Machine.execReadCounts m ref scope s
  | .restartLink m ref => Sys2Proof.Machine.execRestartLink m ref s
  | .lossOfLight => Sys2Proof.Machine.execLossOfLight s
  | .lightReturn => Sys2Proof.Machine.execLightReturn s
  | .returnCell bytes => Sys2Proof.Machine.execReturnCell bytes s
  | .windowEnd => Sys2Proof.Machine.execWindowEnd s
  | .recoveryExpiry => Sys2Proof.Machine.execRecoveryExpiry s
  | .chipSelectAssertion => Sys2Proof.Machine.execChipSelectAssertion s

end Sys2Proof.Machine
end

