-- ==== Sys2Proof/Machine/Timebase.lean ====
section
/-! DEFINITION. The passing of time with no command waiting (log entry 2): one microsecond off every running timer, and
some progress of every page writer. -/

namespace Sys2Proof.Machine

/-- One microsecond off the timers of the shot table: trigger slots, deadlines, the line watchdog (R20, R28, R33, R38). -/
def ShotTable.tick (t : ShotTable) : ShotTable :=
  { t with
    shots := t.shots.map fun h => { h with remaining := h.remaining - 1 }
    slots := Vector.ofFn fun k : Port =>
      t.slots[k].map fun (e : TriggerSlot) => { e with remaining := e.remaining - 1 }
    watchdog := tickTimer t.watchdog }

/-- One microsecond off a supervisor's timers (R68, R75). -/
def Supervisor.tick (u : Supervisor) : Supervisor :=
  { u with throttleTimer := tickTimer u.throttleTimer, warmupTimer := tickTimer u.warmupTimer }

/-- One microsecond off every running timer. A timer that has run out stays at 0 until its expiry, a command of its own,
is taken. -/
def tickTimers (s : State) : State :=
  { s with
    sups := Vector.ofFn fun k : Port => (s.sups[k]).tick
    dark := { s.dark with timer := tickTimer s.dark.timer }
    shots := s.shots.tick
    link := { s.link with recovery := tickTimer s.link.recovery }
    reqs :=
      { s.reqs with
        locks := Vector.ofFn fun l : Fin 13 =>
          s.reqs.locks[l].map fun (e : Lock) => { e with remaining := e.remaining - 1 } } }

/-- A microsecond passes: timers run, and each page writer with a line to write places some of it in memory (R12). -/
def tick (s : State) : State := eachPort writerProgress (tickTimers s)

end Sys2Proof.Machine
end

