-- ==== Sys2Proof/Safety.lean ====
section
/-! DEFINITION. What statements about the SZL-8 are made of: how a request is taken and answered, and what the manual says
always holds of the budgets, supervisors, queues, locks, answers, link and tables. -/

namespace Sys2Proof.Machine

/-! ### Requests -/

/-- A request from this master can be taken now: the line's always; the office's while the link is UP and its answer queue
holds fewer than 8 answers (R135, R138, R140). A request row leaves the window's tallies as they stand, which is the model's
choice (log entry 7). -/
def takable (m : Master) (s : State) : Prop :=
  match m with
  | .line => True
  | .office => s.link.state = .up ∧ s.reqs.officeAnswers.length < 8

/-- The state in which a request's own rule finds the device: a line request has restarted the line watchdog, or first
ended the line's silence (R38, R40). -/
def heard (m : Master) (s : State) : State :=
  match m with
  | .line => hearLine s
  | .office => s

/-- The device once the answer to a request stands where its master finds it: in the line answer buffer, replacing an
unread one (R139), or at the tail of the office answer queue (R140). -/
def answered (m : Master) (a : Answer) (s : State) : State :=
  match m with
  | .line => placeLineAnswer a s
  | .office => { s with reqs := { s.reqs with officeAnswers := s.reqs.officeAnswers ++ [a] } }

/-- An answer DONE with this value. -/
def doneAnswer (kind : Byte) (ref : Half) (value : List Byte) : Answer :=
  { kind, ref, status := .done, reason := none, value }

/-- An answer REFUSED for this reason. -/
def refusedAnswer (kind : Byte) (ref : Half) (r : Reason) : Answer :=
  { kind, ref, status := .refused, reason := some r, value := [] }

/-- An answer of a status that carries neither reason nor value. -/
def bareAnswer (kind : Byte) (ref : Half) (status : Status) : Answer :=
  { kind, ref, status, reason := none, value := [] }

/-! ### Lane messages -/

/-- A supervision state in which a port's reception logic takes lane messages (R2). -/
def receiving (u : SupState) : Prop := u = .warmup ∨ u = .run ∨ u = .throttled ∨ u = .unguarded

/-- The dimensions an OPEN may announce (R3 step 2). -/
def dimensionsOk (width height bpp : Nat) : Prop :=
  1 ≤ width ∧ width ≤ 16384 ∧ 1 ≤ height ∧ height ≤ 65535 ∧ 1 ≤ bpp ∧ bpp ≤ 4 ∧ width * bpp ≤ 16384 ∧
  width * height * bpp ≤ 33554432

/-- The open shot that a frame accepted on port `k` belongs to: the oldest that has fired the port and not seen it
(R29). -/
def shotFor (k : Port) (s : State) : Option Shot :=
  s.shots.shots.find? fun h => inMask h.fired k && !inMask h.seen k

/-- The record of a frame just accepted on port `k`: what R4 fills it with, and what its shot, if any, adds (R29). -/
def acceptedRecord (k : Port) (counter width height : Half) (bpp : Byte) (s : State) : FrameRecord :=
  { port := k, frame := (s.cam k).nextFrame, camera := counter, width := width.toNat, height := height.toNat
    bpp := bpp.toNat, byteLength := 0, chain := [], state := .filling, flags := 0, readError := false
    keep := match shotFor k s with | none => false | some h => h.keep
    lineHold := false, officeHold := false, verdictPending := (shotFor k s).isSome, recallPending := false
    shot := (shotFor k s).map Shot.number, tag := (shotFor k s).bind Shot.tag, cellsSent := 0 }

/-- The open shots once a frame accepted on port `k` as record `n` has been matched (R29). -/
def matchedShots (k : Port) (n : Nat) (s : State) : List Shot :=
  match shotFor k s with
  | none => s.shots.shots
  | some h =>
    s.shots.shots.map fun g =>
      if g.number = h.number then { g with seen := g.seen ||| portBit k, refs := g.refs ++ [(k, n)] } else g

/-- The device once an OPEN of port `k` has been accepted with record `n`, `rest` being the free records left: the record,
the lookup entry, the port, the matched shot, the counts and the dark test of the port (R4, R5, R29, R85). -/
def acceptedOpen (k : Port) (counter width height : Half) (bpp : Byte) (n : Nat) (rest : List Nat) (s : State) : State :=
  let t : State := { s with
    cams := s.cams.set k { s.cam k with
      receive := .assembling, current := some n, expected := 0, linesReceived := 0, bytesAccepted := 0
      nextFrame := (s.cam k).nextFrame + 1 }
    store := { s.store with
      freeRecords := rest
      lookup := Table.set none s.store.lookup (frameKey k (s.cam k).nextFrame) (some n)
      catalogue := Table.set .blank s.store.catalogue n (acceptedRecord k counter width height bpp s) }
    shots := { s.shots with shots := matchedShots k n s } }
  let u := (if shotFor k s = none then t.count k .freeRun else t).count k .framesOpened
  if s.dark.pass = .testing ∧ s.dark.current = k then nextDarkVisit k u else u

/-- The device once an OPEN has cut the frame that record `n` assembles on port `k` short with TRUNCATED (R3 step 1): the
record waits on the completion list while a line of it is staged, and otherwise completes at once. -/
def openTruncated (k : Port) (n : Nat) (s : State) : State :=
  let t := (s.setRecord n { s.record n with flags := (s.record n).flags ||| 0x20 }).modCam k fun p =>
    { p with current := none }
  if (s.cam k).staging.any (fun l => l.owner = n) then
    t.modCam k fun p => { p with completion := p.completion ++ [n] }
  else complete k n t

/-- A refused OPEN: counted, STORE_REFUSED set, and the port skips (R3). -/
def refusedOpen (k : Port) (c : PortCount) (s : State) : State :=
  ((s.count k c).raisePort k .storeRefused).modCam k fun p => { p with receive := .skipping }

/-- The lane flags a LINE of record `r` adds in the tests of R7 and R8: SEQUENCE, LENGTH, CHECK. -/
def lineTests (expected : Nat) (r : FrameRecord) (index check : Half) (payload : List Byte) : LaneFlags :=
  (if index.toNat ≠ expected then 1 else 0) ||| (if payload.length ≠ r.width * r.bpp then 4 else 0) |||
    (if sum16 payload ≠ check then 2 else 0)

/-- Reception of a line: it counts as received and moves the expected index, whatever else becomes of it (R7). -/
def CameraPort.lineSeen (p : CameraPort) (index : Half) : CameraPort :=
  { p with linesReceived := min (p.linesReceived + 1) 65536, expected := index.toNat + 1 }

/-! ### The page writer -/

/-- The state once the page writer of port `k` has written the rest of line `l`, the oldest staged one, `rest` being the
lines staged behind it (R12): the bytes stand in memory, byte length and load byte count have risen, the line has left
staging. -/
def lineWritten (k : Port) (l : StagedLine) (rest : List StagedLine) (s : State) : State :=
  let r := s.record l.owner
  let bytes := l.payload.drop (s.cam k).written
  (({ s with
      store := { s.store with mem := writeMem s.store.mem (frameAddress r.chain r.byteLength) bytes } }.setRecord l.owner
        { r with byteLength := r.byteLength + bytes.length }).modCam k
      fun p => { p with staging := rest, written := 0 }).modSup k
    fun u => { u with loadBytes := u.loadBytes + bytes.length }

/-- The evictions of records with an empty chain, `vs` in turn, that a page request makes from state `s` on without
finding a page, and the state `t` they leave (R43 step 2). -/
def emptyEvictions : List Nat → State → State → Prop
  | [], s, t => t = s
  | v :: vs, s, t => victim s = some v ∧ (s.record v).chain = [] ∧ emptyEvictions vs (evict v s) t

/-- A page request in state `s` is handed page `q`, and `t` is the store then: the head of the free page list, or, with
the list empty, the first page of the first evicted record that has one (R43 steps 1 and 2). -/
def pageFor (s : State) (q : Nat) (t : State) : Prop :=
  (∃ qs, s.store.freePages = q :: qs ∧ t = { s with store := { s.store with freePages := qs } }) ∨
  (s.store.freePages = [] ∧ ∃ vs e v qs, emptyEvictions vs s e ∧ victim e = some v ∧ (e.record v).chain = q :: qs ∧
    t = { evict v e with store := { (evict v e).store with freePages := qs } })

/-- A page request in state `s` is refused: the free page list is empty, and nothing evictable is left in the state `t` that
its fruitless evictions, if any, have come to (R43 step 3). -/
def pageRefused (s t : State) : Prop :=
  s.store.freePages = [] ∧ (∃ vs, emptyEvictions vs s t) ∧
    ∀ m ∈ t.store.ageList, (t.record m).evictable t.store.evictSent = false

/-! ### Supervision -/

/-- The end of WARMUP on port `k` (R68): RUN with blanking 32 and warm-up armed 0; a dark test that waits on the port
starts (R84). -/
def warmupEnded (k : Port) (s : State) : State :=
  let u := s.modSup k fun p =>
    { p with
      state := .run, warmupTimer := none, warmupCompletions := 0, warmupArmed := false, overCount := 0
      tripDue := false, blanking := 32 }
  if s.dark.pass = .waiting ∧ s.dark.current = k then
    { u with dark := { s.dark with pass := .testing, timer := some (darkTestTime s.dark.testTime) } }
  else u

/-! ### Shots -/

/-- The verdict of a close by deadline or overflow (R24, R33). -/
def closingVerdict (s : State) : Verdict :=
  if s.shots.lineState = .attended then s.shots.defaultVerdict else .review

/-- A port that a shot being created can be given the trigger slot of (R25). -/
def slotFree (k : Port) (s : State) : Bool :=
  decide ((s.sup k).state ≠ .disabled ∧ (s.sup k).state ≠ .tripped ∧ s.slot k = none)

/-- The state in which a shot is formed: with 64 shots open, the oldest has been closed, SHOT_OVERFLOW set and
SHOT_OVERFLOWS raised (R23 step 1, R24). -/
def withShotRoom (s : State) : State :=
  match s.shots.shots with
  | [] => s
  | h :: rest =>
    if rest.length < 63 then s
    else ((closeShot (closingVerdict s) h s).raise .shotOverflow).countGlobal .shotOverflows 1

/-- `t` is `s` with one shot more (R23, R25): its record, its number in the window, and what each wanted port has come to,
a trigger slot, a pulse at once for a delay of 0 (R28), or missed. -/
def shotCreated (s t : State) (wanted : BitVec 8) (keep : Bool) (tag : Option Word) (origin : Origin) : Prop :=
  (∃ h : Shot, t.shots.shots = s.shots.shots ++ [h] ∧ h.number = s.shots.next ∧ h.tag = tag ∧ h.origin = origin ∧
    h.wanted = wanted ∧ h.seen = 0 ∧ h.keep = keep ∧ h.deadline = s.shots.deadline ∧
    h.remaining = 1000 * s.shots.deadline ∧ h.refs = [] ∧
    ∀ k : Port, inMask h.missed k = (inMask wanted k && !slotFree k s) ∧
      inMask h.fired k = (inMask wanted k && slotFree k s && decide (s.shots.triggerDelay[k] = 0))) ∧
  t.shots.next = s.shots.next + 1 ∧
  t.shots.window = (if s.shots.window.length < 256 then s.shots.window else s.shots.window.tail) ++ [s.shots.next] ∧
  (∀ k : Port, t.slot k =
    if inMask wanted k && slotFree k s && decide (s.shots.triggerDelay[k] ≠ 0) then
      some { shot := s.shots.next, remaining := s.shots.triggerDelay[k] }
    else s.slot k) ∧
  (∀ k : Port, t.ctrg[k] =
    s.ctrg[k] + if inMask wanted k && slotFree k s && decide (s.shots.triggerDelay[k] = 0) then 1 else 0) ∧
  (∀ k : Port, t.portCount k .triggersMissed =
    s.portCount k .triggersMissed + if inMask wanted k && !slotFree k s then 1 else 0) ∧
  (∀ k : Port, t.events.flags.has (.port .triggerMissed k) =
    (s.events.flags.has (.port .triggerMissed k) || (inMask wanted k && !slotFree k s))) ∧
  t.events.globalCounts = s.events.globalCounts ∧
  t.shots.watchdog = s.shots.watchdog ∧ t.shots.lineState = s.shots.lineState ∧ t.cams = s.cams ∧ t.sups = s.sups ∧
  t.dark = s.dark ∧ t.store = s.store ∧ t.uplink = s.uplink ∧ t.recalls = s.recalls ∧ t.link = s.link ∧
  t.reqs = s.reqs ∧ t.pending = s.pending

/-- A referenced record is offered for promotion at a close with verdict `v` and finds room (R35, R36). -/
def promoted (v : Verdict) (s : State) (p : Port × Nat) : Bool :=
  decide (v ≠ .pass ∧ (s.record p.2).state = .held ∧ (s.record p.2).recallPending = false ∧
    (s.liveQueue p.1).length < 64)

/-! ### The uplink -/

/-- A channel's slew step (R96), from the difference of target and rate before it. -/
def slewStepSize (c : Channel) : Nat :=
  let d := if c.rate ≤ c.target then c.target - c.rate else c.rate - c.target
  min d (if d ≤ c.window then 1 else if c.target < c.rate ∧ c.asymmetric = true then 4 else 8)

/-- A channel once the slew step that the last round mark made due, if any, has been taken (R95, R96; log entry 5). -/
def slewed (c : Channel) : Channel :=
  if c.stepDue then
    { c with
      rate := if c.rate < c.target then c.rate + slewStepSize c else c.rate - slewStepSize c
      stepDue := false }
  else c

/-- A channel has a cell ready for a data slot (R98). -/
def hasCell (s : State) (c : Chan) : Prop :=
  s.link.state = .up ∧ ((∃ k : Port, c = chanOf k ∧ s.liveQueue k ≠ []) ∨ (c = 8 ∧ s.recalls.queue ≠ []))

/-- How far channel `c` stands behind channel `last` in the cyclic order 0, 1, …, 8, 0, …: 0 for the one right after it,
8 for `last` itself (R99). -/
def turnAfter (last c : Chan) : Nat := (c.val + 17 - last.val) % 9

/-- The blocks that hold frame bytes `lo` up to `hi` of a record are all sound. -/
def bytesSound (s : State) (r : FrameRecord) (lo hi : Nat) : Prop :=
  ∀ b, lo ≤ b → b < hi → s.blockHealth (frameAddress r.chain b / 64) = .sound

/-- The cell of index `i` of record `r` sent on channel `c` when no block it reads is in error (R101, R104, R169). -/
def soundCell (s : State) (c : Chan) (r : FrameRecord) (i : Nat) : UplinkCell :=
  { kind := .data, channel := c.val, port := r.port.val, isRecall := decide (c = 8), poison := false
    last := decide (i + 1 = r.cellCount), frame := r.frame, index := i, linkState := s.link.state
    payload :=
      if i = 0 then descriptor r ++ frameBytes s r 0 (min 480 r.byteLength)
      else frameBytes s r (480 + 512 * (i - 1)) (min (480 + 512 * i) r.byteLength) }

/-- The memory blocks that hold frame bytes `lo` up to `hi` of a record, in order (R54, R55). -/
def blocksRead (r : FrameRecord) (lo hi : Nat) : List Nat :=
  if hi ≤ lo then []
  else (ascending (lo / 64) ((hi - 1) / 64 - lo / 64 + 1)).map fun j => frameAddress r.chain (64 * j) / 64

/-- What the blocks read for the next cell of record `r`, number `n`, sent on channel `c`, do to the cell and to the rest of the
device, whatever their health (R56, R57, R169): a block whose error is corrected counts CORRECTED alone; one that cannot be
corrected poisons the cell, counts UNCORRECTABLE, sets STORE_ECC and marks the record, and its bytes alone are open. That
the descriptor in cell 0 shows the read error as it stood before cell 0's own blocks are read is the model's reading (log
entry 10). The cell sent is the model's own field (log entry 17). -/
def cellReported (s t : State) (c : Chan) (n : Nat) (r : FrameRecord) : Prop :=
  let lo := (cellRange r r.cellsSent).1
  let hi := (cellRange r r.cellsSent).2
  let bad := (blocksRead r lo hi).filter fun b => s.blockHealth b = .uncorrectable
  let mended := (blocksRead r lo hi).filter fun b => s.blockHealth b = .correctable
  (∃ bytes : List Byte, bytes.length = hi - lo ∧
    (∀ b, lo ≤ b → b < hi → s.blockHealth (frameAddress r.chain b / 64) ≠ .uncorrectable →
      bytes[b - lo]? = some (readByte s (frameAddress r.chain b))) ∧
    t.uplink.sent = some { soundCell s c r r.cellsSent with
      poison := decide (bad ≠ [])
      payload := (if r.cellsSent = 0 then descriptor r else []) ++ bytes }) ∧
  (t.record n).readError = (r.readError || decide (bad ≠ [])) ∧
  t.globalCount .uncorrectable = s.globalCount .uncorrectable + wordOf bad.length ∧
  t.globalCount .corrected = s.globalCount .corrected + wordOf mended.length ∧
  t.events.flags.has (.global .storeEcc) = (s.events.flags.has (.global .storeEcc) || decide (bad ≠ []))

/-- A live send or a recall undone by the link's leaving UP returns record `r` to before its first cell (R106). -/
def FrameRecord.undone (r : FrameRecord) : FrameRecord :=
  { r with state := if r.state = .sending then .queued else r.state, cellsSent := 0 }

/-! ### The dark-port detector -/

/-- The detector after it looks for its next visit among these ports, in this order (R84): at the first masked one that is
neither DISABLED nor TRIPPED it waits, in WARMUP, or tests; with none it is IDLE, holding the last masked port it passed. -/
def nextVisit (ports : List Port) (s : State) : DarkDetector :=
  match ports.find? fun k =>
      inMask s.dark.mask k && decide ((s.sup k).state ≠ .disabled ∧ (s.sup k).state ≠ .tripped) with
  | none =>
    { s.dark with
      pass := .idle, timer := none
      current := ((ports.filter fun k => inMask s.dark.mask k).getLast?).getD s.dark.current }
  | some k =>
    if (s.sup k).state = .warmup then { s.dark with pass := .waiting, current := k, timer := none }
    else { s.dark with pass := .testing, current := k, timer := some (darkTestTime s.dark.testTime) }

/-- The ports above `k`, ascending. -/
def portsAbove (k : Port) : List Port := allPorts.filter fun j => k < j

/-- The detector once port `k` is disabled or enters TRIPPED: a test of it, or a wait on it, is abandoned without an event and
the next port above it is visited; otherwise the detector stands (R84). -/
def visitAbandoned (k : Port) (s t : State) : Prop :=
  t.dark = if s.dark.pass ≠ .idle ∧ s.dark.current = k then nextVisit (portsAbove k) s else s.dark

/-! ### Settings -/

/-- The field a setting holds after a write of `v` that is taken (R144): a number clamped to its range, an enumeration as
written, a set trimmed to its members; warm-up armed as R67 says. -/
def storedValue (x : Setting) (v : Word) (s : State) : Word :=
  match x with
  | .port _ .tripThreshold => wordOf (min v.toNat 255)
  | .port _ .triggerDelay => wordOf (min v.toNat 65535)
  | .port k .warmupArmed =>
    if v = 0 then 0 else if (s.sup k).state = .disabled then 1 else wordOf (bitCode (s.sup k).warmupArmed)
  | .chan _ .target => wordOf (min v.toNat (gradeMaximum s.link.grade))
  | .chan _ .startRate => wordOf (min v.toNat (gradeMaximum s.link.grade))
  | .chan _ .ceiling => wordOf (max 1 (min v.toNat 4095))
  | .chan _ .window => wordOf (min v.toNat 255)
  | .deadline => wordOf (max 1 (min v.toNat 4095))
  | .pinMask _ => v &&& 0xFF
  | .darkMask => v &&& 0xFF
  | .mask _ f => if f = 0 then v &&& 0xFF03 else v &&& 0x7F
  | .port _ .enable | .port _ .warmupLength | .port _ .tripMode | .port _ .deglitch | .port _ .throttleTimeout
  | .port _ .decimation | .port _ .damagedPolicy | .chan _ .slewCode | .chan _ .asymmetric | .chan _ .surplusEnable
  | .evictSent | .defaultVerdict | .faultCode | .lineWatchdog | .darkTestTime => v

/-- What the camera-port fields 01H to 0AH and 20H to 2AH of CH0 to CH7 carry (R19, R22, R81, R121, R175): numbers as
themselves, enumerations by their position (R176; log entry 23). Enable is 1 exactly outside DISABLED (log entry 25). -/
def portNumber (s : State) (k : Port) : Nat → Option Nat
  | 0x01 => some (if (s.sup k).state = .disabled then 0 else 1)
  | 0x02 => some (if (s.sup k).warmupArmed then 1 else 0)
  | 0x03 => some (s.sup k).warmupLength.val
  | 0x04 => some (s.sup k).threshold
  | 0x05 => some (match (s.sup k).tripMode with
    | .report => 0 | .latch => 1 | .throttle => 2 | .throttleOff => 3 | .throttleRelease => 4)
  | 0x06 => some (s.sup k).deglitch.val
  | 0x07 => some (s.sup k).throttleTimeout.val
  | 0x08 => some (s.sup k).decimation.val
  | 0x09 => some (match (s.cam k).policy with | .send => 0 | .hold => 1 | .discard => 2)
  | 0x0A => some s.shots.triggerDelay[k]
  | 0x20 => some (match (s.sup k).state with
    | .disabled => 0 | .warmup => 1 | .run => 2 | .throttled => 3 | .unguarded => 4 | .tripped => 5)
  | 0x21 => some (s.sup k).lastLoad
  | 0x22 => some (s.sup k).overCount
  | 0x23 => some (s.sup k).calmCount
  | 0x24 => some (s.sup k).decimationCount
  | 0x25 => some (s.sup k).blanking
  | 0x26 => some (match (s.cam k).receive with | .idle => 0 | .assembling => 1 | .skipping => 2)
  | 0x27 => some (s.cam k).staging.length
  | 0x28 => some (s.cam k).lastFlags.toNat
  | 0x29 => some ((s.cam k).nextFrame - 1).toNat
  | 0x2A => some s.recalls.marks[k].toNat
  | _ => none

/-- What the fields 10H to 16H and 30H to 35H of CH0 to CH8 carry (R88, R107, R121, R175, R176); ON is 0 and OFF is 1 (log
entry 23). -/
def chanNumber (s : State) (c : Chan) : Nat → Option Nat
  | 0x10 => some (s.chan c).target
  | 0x11 => some (s.chan c).startRate
  | 0x12 => some (s.chan c).ceiling
  | 0x13 => some (s.chan c).slewCode.val
  | 0x14 => some (s.chan c).window
  | 0x15 => some (if (s.chan c).asymmetric then 0 else 1)
  | 0x16 => some (if (s.chan c).surplus then 0 else 1)
  | 0x30 => some (s.chan c).rate
  | 0x31 => some (s.chan c).credit
  | 0x32 => some (s.chan c).countdown
  | 0x33 => some (if h : c.val < 8 then (s.liveQueue ⟨c.val, h⟩).length else s.recalls.queue.length)
  | 0x34 => some (match (s.chan c).current with
    | none => 0xFFFFFFFF
    | some n => 65536 * (s.record n).port.val + (s.record n).frame.toNat)
  | 0x35 => some (match (s.chan c).current with | none => 0 | some n => (s.record n).cellsSent)
  | _ => none

/-- What the fields of STORE carry (R64, R175, R176; log entry 23). The last two count the catalogue's listed records (log
entry 25). -/
def storeNumber (s : State) : Nat → Option Nat
  | 0x01 => some (if s.store.evictSent then 0 else 1)
  | 0x20 => some (match s.store.phase with | .initializing => 0 | .ready => 1)
  | 0x21 => some (match s.store.memSize with | .low => 1 | .floating => 2 | .high => 4)
  | 0x22 => some (match s.store.memSize with | .low => 16384 | .floating => 32768 | .high => 65536)
  | 0x23 => some s.store.freePages.length
  | 0x24 => some s.store.freeRecords.length
  | 0x25 => some (s.store.catalogue.filter fun e => e.2.state = .held).length
  | 0x26 => some (s.store.catalogue.filter fun e => e.2.evictable s.store.evictSent).length
  | _ => none

/-- What the fields of SHOTS carry (R22, R175, R176; log entry 23). -/
def shotsNumber (s : State) : Nat → Option Nat
  | 0x01 => some s.shots.deadline
  | 0x02 => some (match s.shots.defaultVerdict with | .pass => 0 | .reject => 1 | .review => 2)
  | 0x03 => some s.shots.pinMasks[(0 : Fin 4)].toNat
  | 0x04 => some s.shots.pinMasks[(1 : Fin 4)].toNat
  | 0x05 => some s.shots.pinMasks[(2 : Fin 4)].toNat
  | 0x06 => some s.shots.pinMasks[(3 : Fin 4)].toNat
  | 0x20 => some s.shots.shots.length
  | 0x21 => some s.shots.next.toNat
  | _ => none

/-- What the fields of LINK carry (R137, R175, R176; log entry 23): the recovery remaining in milliseconds, rounded up, and 0
while the timer is stopped (log entry 22); light present is 0 and absent 1, absent exactly in DOWN (log entry 25). -/
def linkNumber (s : State) : Nat → Option Nat
  | 0x01 => some s.link.faultCode.val
  | 0x20 => some (match s.link.state with | .down => 0 | .aligning => 1 | .up => 2 | .recovering => 3 | .halted => 4)
  | 0x21 => some (match s.link.grade with | .full => 0 | .half => 1)
  | 0x22 => some s.link.goodRun
  | 0x23 => some s.link.badRun
  | 0x24 => some (match s.link.recovery with | none => 0 | some us => (us + 999) / 1000)
  | 0x25 => some s.reqs.officeAnswers.length
  | 0x26 => some (if s.link.state = .down then 1 else 0)
  | _ => none

/-- What the fields of MONITOR carry (R22, R86, R175, R176; log entry 23). -/
def monitorNumber (s : State) : Nat → Option Nat
  | 0x01 => some s.shots.watchdogPeriod.val
  | 0x02 => some s.dark.mask.toNat
  | 0x03 => some s.dark.testTime.val
  | 0x20 => some (match s.shots.lineState with | .attended => 0 | .silent => 1)
  | 0x21 => some (match s.dark.pass with | .idle => 0 | .waiting => 1 | .testing => 2)
  | 0x22 => some s.dark.current.val
  | _ => none

/-- What the fields of a mask record carry (R160, R172, R175): 02H to 09H the flags of ports 0 to 7; 01H the global flags, 0 to
7 in the upper byte and 8 and 9 in the lower (log entry 9). -/
def maskNumber (f : FlagSet) (field : Nat) : Option Nat :=
  if field = 1 then some (256 * (f.global.toNat % 256) + f.global.toNat / 256)
  else if h : 2 ≤ field ∧ field < 10 then some (f.ports[field - 2]'(by omega)).toNat
  else none

/-- The number a field carries, by record and field number (R175, R176); none where the numbers name no field. 3EH and 3FH of
a lockable record are its lock's holder and the time it has left in milliseconds, rounded up (R156; log entries 22 and
23). -/
def fieldNumber (s : State) (record field : Nat) : Option Nat :=
  if h : record < 13 then
    if field = 0x3E then
      some (match s.lock ⟨record, h⟩ with
        | none => 0
        | some e => match e.holder with | .line => 1 | .office => 2)
    else if field = 0x3F then
      some (match s.lock ⟨record, h⟩ with | none => 0 | some e => (e.remaining + 999) / 1000)
    else if hc : record < 9 then
      if hk : record < 8 then
        match chanNumber s ⟨record, hc⟩ field with | some n => some n | none => portNumber s ⟨record, hk⟩ field
      else chanNumber s ⟨record, hc⟩ field
    else if record = 9 then storeNumber s field
    else if record = 10 then shotsNumber s field
    else if record = 11 then linkNumber s field
    else monitorNumber s field
  else if record = 13 then maskNumber s.events.maskLine field
  else if record = 14 then maskNumber s.events.maskOffice field
  else none

/-- No master but `m` holds the lock of record `l`. -/
def unbarred (m : Master) (l : Fin 13) (s : State) : Prop := ∀ e, s.lock l = some e → e.holder = m

/-- The lockable record of a channel: CH0 to CH8. -/
def chanRecord (c : Chan) : Fin 13 := ⟨c.val, by omega⟩

/-! ### Reception stopped, TRIPPED entry, leaving UP -/

/-- What stopping port `k`'s reception leaves in the port (R18): IDLE, nothing staged, no record incomplete; the next frame
number and the policy stand. -/
def receptionStopped (k : Port) (s t : State) : Prop :=
  t.cam k = { s.cam k with
    receive := .idle, current := none, expected := 0, linesReceived := 0, bytesAccepted := 0, staging := []
    written := 0, completion := [], lastFlags := (t.cam k).lastFlags } ∧
  (∀ j : Port, j ≠ k → t.cam j = s.cam j) ∧
  t.portCount k .framesCompleted =
    s.portCount k .framesCompleted + wordOf ((s.cam k).completion.length + (s.cam k).current.toList.length)

/-- What TRIPPED entry of port `k` leaves (R76, R18, R84): the state and its items, target, rate and credit 0 on the port's
channel, reception stopped, a dark visit of the port abandoned, every other supervisor and channel as it was. -/
def trippedEntry (k : Port) (s t : State) : Prop :=
  t.sup k = { s.sup k with
    state := .tripped, overCount := 0, tripDue := false, calmCount := 0, decimationCount := 0
    throttleExit := .none, throttleTimer := none } ∧
  (∀ j : Port, j ≠ k → t.sup j = s.sup j) ∧
  t.chan (chanOf k) = { s.chan (chanOf k) with target := 0, rate := 0, credit := 0, stepDue := false } ∧
  (∀ c : Chan, c ≠ chanOf k → t.chan c = s.chan c) ∧
  receptionStopped k s t ∧ visitAbandoned k s t ∧ t.link = s.link ∧ t.reqs = s.reqs ∧ t.recalls = s.recalls

/-- A record whose send the link's leaving UP undoes: one in SENDING at the head of its live queue, or the record of a
started recall (R106). -/
def sendUndone (s : State) (n : Nat) : Prop :=
  (∃ k : Port, (s.liveQueue k).head? = some n ∧ (s.record n).state = .sending) ∨
  ∃ e : RecallEntry, s.recalls.queue.head? = some e ∧ e.started = true ∧ e.record = n

/-- What the link's leaving UP does to the rest of the device (R106, R127, R155): sends in progress undone, the current record
of their channels absent, channel 8's too, their credit kept; the head recall not started; the office's locks released, its
answers dropped and counted; LINK_DOWN set and, unless MASK_OFFICE masks it, notice-pending (R158). Everything else but the
link's own items stands. -/
def linkDeparted (s t : State) : Prop :=
  (∀ n, sendUndone s n → t.record n = (s.record n).undone) ∧
  (∀ n, ¬sendUndone s n → t.record n = s.record n) ∧
  (∀ k : Port, t.chan (chanOf k) =
    { s.chan (chanOf k) with
      current := if ∃ n, (s.liveQueue k).head? = some n ∧ (s.record n).state = .sending then none
        else (s.chan (chanOf k)).current }) ∧
  t.chan recallChan =
    { s.chan recallChan with
      current := if ∃ e, s.recalls.queue.head? = some e ∧ e.started = true then none
        else (s.chan recallChan).current } ∧
  t.recalls.queue = (match s.recalls.queue with | [] => [] | e :: rest => { e with started := false } :: rest) ∧
  (∀ l : Fin 13, t.lock l = (s.lock l).filter fun e => e.holder ≠ .office) ∧
  (∀ c : GlobalCount, t.globalCount c = s.globalCount c +
    if c = .officeAnswersLost then wordOf s.reqs.officeAnswers.length else 0) ∧
  t = { s with
    store := { s.store with catalogue := t.store.catalogue }
    uplink := { s.uplink with chans := t.uplink.chans }
    recalls := { s.recalls with queue := t.recalls.queue }
    link := t.link
    reqs := { s.reqs with officeAnswers := [], locks := t.reqs.locks }
    events := { s.events with
      flags := s.events.flags.insert (.global .linkDown)
      noticePending := if s.events.maskOffice.has (.global .linkDown) then s.events.noticePending
        else s.events.noticePending.insert (.global .linkDown)
      globalCounts := t.events.globalCounts } }

/-! ### Office requests -/

/-- The sender of a request row that forms an answer when the office sends it: every request kind but RECEIPT (R140); none
for the rows that are not requests. -/
def answeredSender : Instr → Option Master
  | .trigger m _ _ _ _ _ => some m
  | .tag m _ _ _ => some m
  | .queryShot m _ _ => some m
  | .verdict m _ _ _ => some m
  | .unknownKindRequest m _ _ => some m
  | .read m _ _ _ => some m
  | .write m _ _ _ _ => some m
  | .lockRead m _ _ _ => some m
  | .writeUnlock m _ _ _ _ => some m
  | .unlock m _ _ => some m
  | .enableWrite m _ _ _ => some m
  | .warmupArmedWrite m _ _ _ => some m
  | .tripThresholdWrite m _ _ _ => some m
  | .clearFault m _ _ => some m
  | .darkMaskWrite m _ _ => some m
  | .lineWatchdogWrite m _ _ => some m
  | .targetWrite m _ _ _ => some m
  | .ceilingWrite m _ _ _ => some m
  | .slewCodeWrite m _ _ _ => some m
  | .maskWrite m _ _ _ _ => some m
  | .recallFrame m _ _ _ => some m
  | .hold m _ _ _ => some m
  | .unhold m _ _ _ => some m
  | .releaseKeep m _ _ _ => some m
  | .queryFrame m _ _ _ => some m
  | .flushStore m _ => some m
  | .clearEvents m _ _ => some m
  | .readCounts m _ _ => some m
  | .restartLink m _ => some m
  | .receipt _ _ _ _ | .powerOnReset _ _ | .storeInitEnd | .laneOpen _ _ _ _ _ | .laneLine _ _ _ _ _
  | .laneClose _ _ | .laneUnrecognized _ _ | .lineWriteEnd _ | .pageRequest _ | .triggerEdge _
  | .triggerSlotExpiry _ | .deadlineExpiry _ | .lineWatchdogExpiry | .lineTransfer _ | .lockExpiry _
  | .warmupExpiry _ | .roundMark | .slewStep _ | .trip _ | .calmReturn _ | .throttleTimeout _ | .darkTestExpiry
  | .dataSlot _ | .controlSlot | .lossOfLight | .lightReturn | .returnCell _ | .windowEnd | .recoveryExpiry
  | .chipSelectAssertion => none

/-! ### Invariants -/

/-- What R88 says of one channel, at a grade: credit within its cap, target, rate and start rate within the grade maximum,
rate 0 at target 0, the slew countdown within its period, and rate at target with slew code 0 (R95). -/
def Channel.budgetOk (g : Grade) (c : Channel) : Prop :=
  c.credit ≤ 16 * c.ceiling ∧ 1 ≤ c.ceiling ∧ c.ceiling ≤ 4095 ∧ c.window ≤ 255 ∧
  c.target ≤ gradeMaximum g ∧ c.startRate ≤ gradeMaximum g ∧ c.rate ≤ gradeMaximum g ∧
  (c.target = 0 → c.rate = 0) ∧
  (c.slewCode = 0 → c.rate = c.target ∧ c.countdown = 0) ∧
  (c.slewCode ≠ 0 → 1 ≤ c.countdown ∧ c.countdown ≤ slewPeriod c.slewCode)

/-- Every channel's budget is as R88 says, and that of a TRIPPED port's channel is all 0 (R76). -/
def State.budgetsOk (s : State) : Prop :=
  (∀ c : Chan, (s.chan c).budgetOk s.link.grade) ∧
  ∀ k : Port, (s.sup k).state = .tripped →
    (s.chan (chanOf k)).target = 0 ∧ (s.chan (chanOf k)).rate = 0 ∧ (s.chan (chanOf k)).credit = 0

/-- What R65 says of one supervisor: the ranges of its counts, and what each item is outside the state it belongs to. -/
def Supervisor.itemsOk (u : Supervisor) : Prop :=
  u.lastLoad ≤ 65535 ∧ u.blanking ≤ 32 ∧ u.overCount ≤ 8 ∧ u.calmCount ≤ 256 ∧ u.decimationCount ≤ 15 ∧
  u.warmupCompletions ≤ 1 ∧
  (u.tripDue = false → u.overCount ≤ 7) ∧
  (u.state = .disabled → u.blanking = 0) ∧
  (u.state ≠ .run → u.overCount = 0 ∧ u.tripDue = false) ∧
  (u.state ≠ .throttled →
    u.calmCount = 0 ∧ u.decimationCount = 0 ∧ u.throttleExit = .none ∧ u.throttleTimer = none) ∧
  (u.state ≠ .warmup → u.warmupCompletions = 0 ∧ u.warmupTimer = none)

/-- Every supervisor's items are as R65 says. -/
def State.supervisorsOk (s : State) : Prop := ∀ k : Port, (s.sup k).itemsOk

/-- The bounds of the device's lists: 8 staged lines a port (R1), 64 records a live queue (R97), 16 recalls (R111), 64 open
shots and 256 numbers in the recent-shot window (R20), 8 office answers (R134). -/
def State.queuesOk (s : State) : Prop :=
  (∀ k : Port, (s.cam k).staging.length ≤ 8 ∧ (s.liveQueue k).length ≤ 64) ∧
  s.recalls.queue.length ≤ 16 ∧ s.shots.shots.length ≤ 64 ∧ s.shots.window.length ≤ 256 ∧
  s.reqs.officeAnswers.length ≤ 8

/-- No office lock and no office answer exists while the link is not UP, no line lock while the line is silent, and no lock
has more than 50 ms left (R134, R149). -/
def State.locksOk (s : State) : Prop :=
  (s.link.state ≠ .up → s.reqs.officeAnswers = []) ∧
  ∀ (l : Fin 13) (e : Lock), s.lock l = some e →
    e.remaining ≤ 50000 ∧ (e.holder = .office → s.link.state = .up) ∧
    (e.holder = .line → s.shots.lineState = .attended)

/-- What R122 says of the link's items in each state, and R124 of the window in progress. -/
def Link.itemsOk (l : Link) : Prop :=
  l.goodRun ≤ 2 ∧ l.badRun ≤ 6 ∧
  (l.window.isSome ↔ l.state = .aligning ∨ l.state = .up ∨ l.state = .recovering) ∧
  (l.state = .down ∨ l.state = .halted → l.goodRun = 0 ∧ l.badRun = 0) ∧
  (l.state = .aligning ∨ l.state = .recovering → l.badRun = 0) ∧
  (l.state ≠ .recovering → l.recovery = none)

/-- Frame memory, the catalogue, the lookup map and the block health table each have their one canonical form. -/
def State.tablesOk (s : State) : Prop :=
  Memory.wf s.store.mem ∧ Table.wf FrameRecord.blank s.store.catalogue ∧ Table.wf none s.store.lookup ∧
  Table.wf BlockHealth.sound s.store.health

end Sys2Proof.Machine
end

