-- ==== Sys2Proof/Certificates/Slice0/Obligations.lean ====
section
/-! DEFINITION. The statements for the provers, from the numbered rules of spec/: what each command does, what it leaves as
it stands, and what always holds. Every statement names the next state; equality of states is its frame. -/

open Sys2Proof Sys2Proof.Machine

/-! ### Steps and reset -/

/-- A step takes the command at the front of the queue and runs it with the queue's rest. -/
def Obligations.StepRunsFrontCommand : Prop :=
  ∀ (c : Instr) (rest : List Instr) (s : State),
    step { s with pending := c :: rest } = exec c { s with pending := rest }

/-- With no command waiting, a microsecond passes (the model's choice, log entries 2 and 6): every running timer falls by 1
down to 0, and page writers may place staged bytes; frames' other fields, counts, flags, queues and budgets stand. -/
def Obligations.IdleStepPassesTime : Prop :=
  ∀ s : State, s.pending = [] → ∃ t : State, step s = .next t ∧
    t.pending = [] ∧ t.events = s.events ∧ t.uplink = s.uplink ∧ t.recalls = s.recalls ∧ t.ctrg = s.ctrg ∧
    t.link = { s.link with recovery := s.link.recovery.map (· - 1) } ∧
    t.dark = { s.dark with timer := s.dark.timer.map (· - 1) } ∧
    (∀ l : Fin 13, t.lock l = (s.lock l).map fun e => { e with remaining := e.remaining - 1 }) ∧
    t.reqs.officeAnswers = s.reqs.officeAnswers ∧ t.reqs.lineBuffer = s.reqs.lineBuffer ∧
    t.shots.shots = s.shots.shots.map (fun h => { h with remaining := h.remaining - 1 }) ∧
    t.shots.watchdog = s.shots.watchdog.map (· - 1) ∧
    (∀ k : Port, t.slot k = (s.slot k).map fun e => { e with remaining := e.remaining - 1 }) ∧
    (∀ k : Port, t.sup k = { s.sup k with
      loadBytes := (t.sup k).loadBytes
      throttleTimer := (s.sup k).throttleTimer.map (· - 1)
      warmupTimer := (s.sup k).warmupTimer.map (· - 1) }) ∧
    (∀ k : Port, t.cam k = { s.cam k with written := (t.cam k).written }) ∧
    t.store.freePages = s.store.freePages ∧ t.store.freeRecords = s.store.freeRecords ∧
    t.store.ageList = s.store.ageList ∧ t.store.lookup = s.store.lookup ∧ t.store.phase = s.store.phase

/-- What power-on reset leaves in each camera port, supervisor, the dark-port detector, shot table, store, channel, recall unit,
link, answers, locks, flags, masks and counts (R1, R19, R20, R22, R59, R64, R65, R81 to R83, R86, R88, R97, R99, R108, R122,
R134, R137, R139, R149, R157, R160, R163, R165). Enable, target and surplus by PSTART are PstartSetsPorts. That the command
queue stands is the model's choice (log entry 24). -/
def Obligations.PowerOnResetLeaves : Prop :=
  ∀ (straps : Straps) (light : Bool) (s : State), ∃ t : State,
    exec (.powerOnReset straps light) s = .next t ∧ t.pending = s.pending ∧
    (∀ k : Port, (t.cam k).receive = .idle ∧ (t.cam k).current = none ∧ (t.cam k).expected = 0 ∧
      (t.cam k).linesReceived = 0 ∧ (t.cam k).bytesAccepted = 0 ∧ (t.cam k).staging = [] ∧
      (t.cam k).completion = [] ∧ (t.cam k).nextFrame = 0 ∧ (t.cam k).lastFlags = 0 ∧ (t.cam k).policy = .send) ∧
    (∀ k : Port, (t.sup k).loadBytes = 0 ∧ (t.sup k).lastLoad = 0 ∧ (t.sup k).blanking = 0 ∧
      (t.sup k).overCount = 0 ∧ (t.sup k).calmCount = 0 ∧ (t.sup k).decimationCount = 0 ∧
      (t.sup k).throttleExit = .none ∧ (t.sup k).throttleTimer = none ∧ (t.sup k).warmupCompletions = 0 ∧
      (t.sup k).warmupTimer = none ∧ (t.sup k).warmupArmed = false ∧ warmupTime (t.sup k).warmupLength = 20000 ∧
      (t.sup k).threshold = 0 ∧ (t.sup k).tripMode = .report ∧ deglitchRounds (t.sup k).deglitch = 2 ∧
      throttleTime (t.sup k).throttleTimeout = 200000 ∧ decimationOf (t.sup k).decimation = 4) ∧
    (t.shots.shots = [] ∧ t.shots.next = 0 ∧ t.shots.window = [] ∧ (∀ k : Port, t.slot k = none) ∧
      t.shots.lineState = .attended ∧ t.shots.deadline = 500 ∧ t.shots.defaultVerdict = .pass ∧
      (∀ n : Fin 4, t.shots.pinMasks[n] = 0) ∧ (∀ k : Port, t.shots.triggerDelay[k] = 0) ∧
      t.shots.watchdog = (if straps.lwd = .low then none else some 8000000) ∧
      readSetting t .lineWatchdog = (if straps.lwd = .low then 0 else 3)) ∧
    (t.dark.current = 0 ∧ darkTestTime t.dark.testTime = 400000 ∧
      (straps.pstart = .low → t.dark.pass = .idle ∧ t.dark.timer = none ∧ t.dark.mask = 0) ∧
      (straps.pstart ≠ .low → t.dark.pass = .testing ∧ t.dark.timer = some 400000 ∧ t.dark.mask = 0xFF)) ∧
    (t.store.phase = .initializing ∧
      memoryGiB t.store.memSize = (match straps.memsz with | .low => 1 | .floating => 2 | .high => 4) ∧
      t.store.freeRecords = ascending 0 4096 ∧
      t.store.freePages = ascending 0 (pagesOf straps.memsz) ∧ t.store.ageList = [] ∧
      (∀ k n, t.lookup k n = none) ∧ (∀ n, (t.record n).state = .free) ∧ t.store.evictSent = true) ∧
    (∀ k : Port, (t.chan (chanOf k)).ceiling = 256 ∧ (t.chan (chanOf k)).slewCode = 3 ∧
      (t.chan (chanOf k)).window = 32 ∧ (t.chan (chanOf k)).asymmetric = false ∧
      (t.chan (chanOf k)).rate = (t.chan (chanOf k)).target ∧ (t.chan (chanOf k)).credit = 0 ∧
      (t.chan (chanOf k)).countdown = 4 ∧ (t.chan (chanOf k)).current = none ∧ t.liveQueue k = []) ∧
    ((t.chan 8).target = 144 ∧ (t.chan 8).startRate = 144 ∧ (t.chan 8).ceiling = 64 ∧ (t.chan 8).slewCode = 0 ∧
      (t.chan 8).window = 32 ∧ (t.chan 8).asymmetric = false ∧ (t.chan 8).surplus = true ∧ (t.chan 8).rate = 144 ∧
      (t.chan 8).credit = 0 ∧ (t.chan 8).countdown = 0 ∧ (t.chan 8).current = none ∧ t.uplink.lastCredit = 8 ∧
      t.uplink.lastSurplus = 8) ∧
    (t.recalls.queue = [] ∧ ∀ k : Port, t.recalls.marks[k] = 0) ∧
    (t.link.state = (if light then .aligning else .down) ∧ t.link.goodRun = 0 ∧ t.link.badRun = 0 ∧
      t.link.window = (if light then some { valid := 0, failures := 0 } else none) ∧ t.link.recovery = none ∧
      t.link.grade = gradeOf straps.grade ∧ faultCount t.link.faultCode = 2) ∧
    (t.reqs.lineBuffer = none ∧ t.reqs.officeAnswers = [] ∧ ∀ l : Fin 13, t.lock l = none) ∧
    (t.events.flags = .empty ∧ t.events.noticePending = .empty ∧ t.events.maskOffice = .empty ∧
      (∀ e : Event, t.events.maskLine.has e = decide (e = .global .linkUp)) ∧ t.attnLow = false ∧
      (∀ (k : Port) (c : PortCount), t.portCount k c = 0) ∧ ∀ c : GlobalCount, t.globalCount c = 0)

/-- PSTART and GRADE at power-on reset (R82). -/
def Obligations.PstartSetsPorts : Prop :=
  ∀ (straps : Straps) (light : Bool) (s : State), ∃ t : State, exec (.powerOnReset straps light) s = .next t ∧
    ∀ k : Port,
      (straps.pstart = .low → (t.sup k).state = .disabled ∧ (t.chan (chanOf k)).target = 0 ∧
        (t.chan (chanOf k)).startRate = 0 ∧ (t.chan (chanOf k)).surplus = false ∧ t.dark.mask = 0 ∧
        readSetting t (.port k .enable) = 0) ∧
      (straps.pstart ≠ .low → (t.sup k).state = .run ∧ readSetting t (.port k .enable) = 1 ∧
        (t.chan (chanOf k)).target = (if straps.grade = .high then 288 else 144) ∧
        (t.chan (chanOf k)).startRate = (t.chan (chanOf k)).target ∧
        (t.chan (chanOf k)).surplus = decide (straps.pstart = .high) ∧ t.dark.mask = 0xFF) ∧
      (t.sup k).warmupArmed = false ∧ (t.sup k).threshold = 0 ∧ (t.sup k).tripMode = .report ∧
      t.store.phase = .initializing

/-! ### Camera ports (chapter 1) -/

/-- In DISABLED and TRIPPED every lane message is discarded and counted, and nothing else changes (R2); a message the port does
not recognize changes nothing while the port receives (R178). -/
def Obligations.DiscardedAndUnknownLaneMessages : Prop :=
  (∀ (s : State) (k : Port), (s.sup k).state = .disabled ∨ (s.sup k).state = .tripped →
     (∀ counter width height bpp, exec (.laneOpen k counter width height bpp) s = .next (s.count k .discardedState)) ∧
     (∀ index length check payload,
       exec (.laneLine k index length check payload) s = .next (s.count k .discardedState)) ∧
     (∀ count, exec (.laneClose k count) s = .next (s.count k .discardedState)) ∧
     ∀ msg, exec (.laneUnrecognized k msg) s = .next (s.count k .discardedState)) ∧
  (∀ (s : State) (k : Port) (msg : List Byte), receiving (s.sup k).state →
     ((byteAt msg 0 ≠ 1 ∧ byteAt msg 0 ≠ 2 ∧ byteAt msg 0 ≠ 3) ∨ (byteAt msg 0 = 1 ∧ msg.length < 8) ∨
       (byteAt msg 0 = 2 ∧ msg.length < 7) ∨ (byteAt msg 0 = 3 ∧ msg.length < 3)) →
     exec (.laneUnrecognized k msg) s = .next s)

/-- A LINE in IDLE or SKIPPING is stray (R6). -/
def Obligations.StrayLineCounted : Prop :=
  ∀ (s : State) (k : Port) (index length check : Half) (payload : List Byte), receiving (s.sup k).state →
    (s.cam k).receive = .idle ∨ (s.cam k).receive = .skipping →
    exec (.laneLine k index length check payload) s = .next (s.count k .stray) ∧
    (s.count k .stray).portCount k .stray = s.portCount k .stray + 1 ∧
    ((s.count k .stray).cam k).receive = (s.cam k).receive

/-- An accepted OPEN: record, lookup entry, shot, counts, dark test (R4, R5, R29, R85), where the store serves it from its free
record list, by an eviction (R46 step 3), or after evicting the record that still holds the key (R47); in ASSEMBLING all
this acts on the state `t` in which the assembling frame has been cut short (R3 step 1). Where two open shots bear the matched
shot's number, that both take the reference is the model's choice (log entry 28). -/
def Obligations.OpenAcceptedFillsRecord : Prop :=
  ∀ (s t : State) (k : Port) (counter width height : Half) (bpp : Byte),
    receiving (s.sup k).state → dimensionsOk width.toNat height.toNat bpp.toNat → s.store.phase = .ready →
    ((s.cam k).receive ≠ .assembling ∧ t = s) ∨
      (∃ a, (s.cam k).receive = .assembling ∧ (s.cam k).current = some a ∧ t = openTruncated k a s) →
    (∀ n rest, t.lookup k (s.cam k).nextFrame = none → t.store.freeRecords = n :: rest →
      exec (.laneOpen k counter width height bpp) s = .next (acceptedOpen k counter width height bpp n rest t)) ∧
    (∀ v, t.lookup k (s.cam k).nextFrame = none → t.store.freeRecords = [] → victim t = some v →
      exec (.laneOpen k counter width height bpp) s =
        .next (acceptedOpen k counter width height bpp v [] (evict v t))) ∧
    ∀ c n rest, t.lookup k (s.cam k).nextFrame = some c → (t.record c).evictable t.store.evictSent = true →
      t.store.freeRecords ++ [c] = n :: rest →
      exec (.laneOpen k counter width height bpp) s =
        .next (acceptedOpen k counter width height bpp n rest (evict c t))

/-- Which test refuses an OPEN, with the count it gives: oversize, an INITIALIZING store, a key a record still holds, no
record left (R3 steps 2 to 4, R46, R47). An OPEN in ASSEMBLING has then already cut the assembling frame short with TRUNCATED,
its lines still staged or not, and the refusal leaves that in place (R3 step 1). That expected index, lines received and
bytes accepted stand after a refused OPEN is the model's (log entry 16). -/
def Obligations.OpenRefusedOrTruncating : Prop :=
  ∀ (s t : State) (k : Port) (counter width height : Half) (bpp : Byte), receiving (s.sup k).state →
    ((s.cam k).receive ≠ .assembling ∧ t = s) ∨
      (∃ a, (s.cam k).receive = .assembling ∧ (s.cam k).current = some a ∧ t = openTruncated k a s) →
    (¬dimensionsOk width.toNat height.toNat bpp.toNat →
      exec (.laneOpen k counter width height bpp) s = .next (refusedOpen k .oversize t)) ∧
    (dimensionsOk width.toNat height.toNat bpp.toNat → s.store.phase = .initializing →
      exec (.laneOpen k counter width height bpp) s = .next (refusedOpen k .refused t)) ∧
    (∀ n, dimensionsOk width.toNat height.toNat bpp.toNat → s.store.phase = .ready →
      t.lookup k (s.cam k).nextFrame = some n → (t.record n).evictable t.store.evictSent = false →
      exec (.laneOpen k counter width height bpp) s = .next (refusedOpen k .refused t)) ∧
    (dimensionsOk width.toNat height.toNat bpp.toNat → s.store.phase = .ready →
      t.lookup k (s.cam k).nextFrame = none → t.store.freeRecords = [] →
      (∀ n ∈ t.store.ageList, (t.record n).evictable t.store.evictSent = false) →
      exec (.laneOpen k counter width height bpp) s = .next (refusedOpen k .refused t))

/-- A LINE in ASSEMBLING (R7 to R10): tested, then staged, cut to what the 512-page limit leaves, or discarded with OVERRUN,
cut or not; a malformed one stores nothing, be its length field out of range (R8) or its payload of another size (R178). -/
def Obligations.LineTestedAndStaged : Prop :=
  ∀ (s : State) (k : Port) (index length check : Half) (payload : List Byte) (n : Nat) (r : FrameRecord),
    receiving (s.sup k).state → (s.cam k).receive = .assembling → (s.cam k).current = some n →
    r = s.record n → r.state = .filling →
    let seq : LaneFlags := if index.toNat ≠ (s.cam k).expected then 1 else 0
    let tested := r.flags ||| lineTests (s.cam k).expected r index check payload
    let room := 33554432 - (s.cam k).bytesAccepted
    let seen := s.modCam k fun p => p.lineSeen index
    let ok := length.toNat = payload.length ∧ 1 ≤ payload.length ∧ payload.length ≤ 16384
    (¬ok → exec (.laneLine k index length check payload) s =
      .next (seen.setRecord n { r with flags := r.flags ||| seq ||| 4 })) ∧
    (ok → payload.length ≤ room → (s.cam k).staging.length < 8 →
      exec (.laneLine k index length check payload) s =
        .next ((seen.setRecord n { r with flags := tested }).modCam k fun p =>
          { p with
            bytesAccepted := p.bytesAccepted + payload.length
            staging := p.staging ++ [{ payload, owner := n }] })) ∧
    (ok → room < payload.length → 1 ≤ room → (s.cam k).staging.length < 8 →
      exec (.laneLine k index length check payload) s =
        .next ((seen.setRecord n { r with flags := tested ||| 4 }).modCam k fun p =>
          { p with
            bytesAccepted := p.bytesAccepted + room
            staging := p.staging ++ [{ payload := payload.take room, owner := n }] })) ∧
    (ok → room = 0 → exec (.laneLine k index length check payload) s =
      .next (seen.setRecord n { r with flags := tested ||| 4 })) ∧
    (ok → payload.length ≤ room → 8 ≤ (s.cam k).staging.length →
      exec (.laneLine k index length check payload) s =
        .next ((seen.setRecord n { r with flags := tested ||| 0x10 }).count k .overrunLines)) ∧
    (ok → room < payload.length → 1 ≤ room → 8 ≤ (s.cam k).staging.length →
      exec (.laneLine k index length check payload) s =
        .next ((seen.setRecord n { r with flags := tested ||| 4 ||| 0x10 }).count k .overrunLines))

/-- A CLOSE in each receive state (R11); expected index and lines received at 0 after it are the model's (log entry 16). -/
def Obligations.CloseEndsFrame : Prop :=
  ∀ (s : State) (k : Port) (count : Half), receiving (s.sup k).state →
    ((s.cam k).receive = .idle → exec (.laneClose k count) s = .next (s.count k .stray)) ∧
    ((s.cam k).receive = .skipping →
      exec (.laneClose k count) s = .next (s.modCam k fun p => { p with receive := .idle })) ∧
    (∀ n, (s.cam k).receive = .assembling → (s.cam k).current = some n →
      let flagged := (s.setRecord n { s.record n with
        flags := (s.record n).flags ||| if count.toNat ≠ (s.cam k).linesReceived then 8 else 0 })
      ((∃ l ∈ (s.cam k).staging, l.owner = n) → (s.record n).state = .filling →
        exec (.laneClose k count) s = .next (flagged.modCam k fun p =>
          { p with
            receive := .idle, current := none, expected := 0, linesReceived := 0
            completion := p.completion ++ [n] })) ∧
      ((∀ l ∈ (s.cam k).staging, l.owner ≠ n) → (s.record n).state = .filling →
        exec (.laneClose k count) s = .next (complete k n (flagged.modCam k fun p =>
          { p with receive := .idle, current := none, expected := 0, linesReceived := 0 }))))

/-- What a completion does, and where it places the record (R14, R15, R16, R17, R73): in WARMUP the first is counted and the second
ends the warm-up (R68). -/
def Obligations.CompletionPlacesRecord : Prop :=
  ∀ (s t u : State) (k : Port) (n : Nat) (r : FrameRecord), r = s.record n → r.state = .filling →
    let aged := ({ s with store := { s.store with ageList := s.store.ageList ++ [n] } } : State).count k .framesCompleted
    t = (if r.flags = 0 then aged else (aged.count k .framesDamaged).raisePort k .laneError).modCam k
      (fun p => { p with lastFlags := r.flags }) →
    u = (if (s.sup k).state ≠ .warmup then t
      else if (s.sup k).warmupCompletions = 0 then t.modSup k fun p => { p with warmupCompletions := 1 }
      else warmupEnded k t) →
    let queued := (u.setLive k (s.liveQueue k ++ [n])).setRecord n { r with state := .queued }
    let held := u.setRecord n { r with state := .held }
    let free : Prop := r.keep = true ∨ (s.sup k).state ≠ .throttled
    let clean : Prop := r.flags = 0 ∨ (s.cam k).policy = .send
    (clean → free → (s.liveQueue k).length < 64 → complete k n s = queued) ∧
    (clean → free → 64 ≤ (s.liveQueue k).length → complete k n s = held.count k .queueFull) ∧
    (clean → r.keep = false → (s.sup k).state = .throttled →
      complete k n s =
        ((if (s.sup k).decimationCount ≠ 0 then held.count k .heldThrottle
          else if (s.liveQueue k).length < 64 then queued else held.count k .queueFull).modSup k
          fun u => { u with decimationCount := (u.decimationCount + 1) % decimationOf u.decimation })) ∧
    (r.flags ≠ 0 → (s.cam k).policy = .hold → complete k n s = held) ∧
    (r.flags ≠ 0 → (s.cam k).policy = .discard →
      complete k n s = (dropReference n (freeRecord n u)).count k .discardedPolicy)

/-- The end of a line write when the rest of the line fits in the record's last page and no block it touches is in error:
the record completes if this was the last staged line of a closed frame (R12); the line's bytes stand at consecutive
addresses from byte length on and every other byte of memory reads as before (R12, R41). -/
def Obligations.LineWriteEndStoresLine : Prop :=
  (∀ (s : State) (k : Port) (l : StagedLine) (rest : List StagedLine) (r : FrameRecord),
     (s.cam k).staging = l :: rest → r = s.record l.owner →
     l.payload.length - (s.cam k).written ≤ r.chain.length * 65536 - r.byteLength →
     (∀ b, s.blockHealth b = .sound) →
     let closed := l.owner ∈ (s.cam k).completion ∧ ∀ m ∈ rest, m.owner ≠ l.owner
     (¬closed → exec (.lineWriteEnd k) s = .next (lineWritten k l rest s)) ∧
     (closed → exec (.lineWriteEnd k) s = .next (complete k l.owner ((lineWritten k l rest s).modCam k
       fun p => { p with completion := p.completion.erase l.owner })))) ∧
  (∀ (s : State) (k : Port) (l : StagedLine) (rest : List StagedLine) (r : FrameRecord) (bytes : List Byte) (a : Nat),
     (s.cam k).staging = l :: rest → r = s.record l.owner → bytes = l.payload.drop (s.cam k).written →
     bytes.length ≤ r.chain.length * 65536 - r.byteLength → (∀ b, s.blockHealth b = .sound) →
     Memory.wf s.store.mem → a = frameAddress r.chain r.byteLength →
     ∃ t, exec (.lineWriteEnd k) s = .next t ∧
       (∀ (i : Nat) (h : i < bytes.length), readByte t (a + i) = bytes[i]) ∧
       ∀ x, x < a ∨ a + bytes.length ≤ x → readByte t x = readByte s x)

/-- A page request served from the free page list or by evictions, or refused (R13, R43), `p` being the state in which the
writer has filled its record's last page. The bytes written stand at consecutive addresses, and every other byte of memory
reads as before (R12, R41); the chain holds ⌈byte length / 65,536⌉ pages after it as before it (R12, R44). That the page comes
with its first byte is log entry 27's; that expected index, lines received and bytes accepted stand after the cut is log
entry 16's: both the model's. -/
def Obligations.PageRequestServedOrCutShort : Prop :=
  ∀ (s p : State) (k : Port) (l : StagedLine) (rest : List StagedLine) (n room : Nat) (r : FrameRecord)
    (bytes : List Byte) (a : Nat),
    (s.cam k).staging = l :: rest → n = l.owner → r = s.record n →
    room = r.chain.length * 65536 - r.byteLength → room < l.payload.length - (s.cam k).written →
    p = placeBytes k room s →
    (∀ q u, pageFor p q u → exec (.pageRequest k) s =
      .next (placeBytes k 1 (u.modRecord n fun r => { r with chain := r.chain ++ [q] }))) ∧
    (∀ u, pageRefused p u → exec (.pageRequest k) s =
      .next (complete k n ((u.modRecord n fun r => { r with flags := r.flags ||| 0x40 }).modCam k fun c =>
        { c with
          staging := c.staging.filter fun m => m.owner ≠ n
          written := 0
          receive := if c.current = some n then .skipping else c.receive
          current := if c.current = some n then none else c.current
          completion := c.completion.erase n }))) ∧
    ((∀ b, s.blockHealth b = .sound) → s.tablesOk → r.state = .filling →
      r.chain.length = (r.byteLength + 65535) / 65536 → a = frameAddress r.chain r.byteLength →
      bytes = (l.payload.drop (s.cam k).written).take room →
      (∀ q u, pageFor p q u → ∃ t, exec (.pageRequest k) s = .next t ∧
        (∀ (i : Nat) (h : i < bytes.length), readByte t (a + i) = bytes[i]) ∧
        some (readByte t (65536 * q)) = l.payload[(s.cam k).written + room]? ∧
        ∀ x, x < a ∨ a + bytes.length ≤ x → x ≠ 65536 * q → readByte t x = readByte s x) ∧
      (∀ u, pageRefused p u → ∃ t, exec (.pageRequest k) s = .next t ∧
        (∀ (i : Nat) (h : i < bytes.length), readByte t (a + i) = bytes[i]) ∧
        ∀ x, x < a ∨ a + bytes.length ≤ x → readByte t x = readByte s x) ∧
      ∃ t, exec (.pageRequest k) s = .next t ∧
        ((t.record n).state ≠ .free → (t.record n).chain.length = ((t.record n).byteLength + 65535) / 65536))

/-- The eviction order (R51, R52): DELIVERED before HELD before SENT, the oldest of its state, and none only when nothing on
the age list is evictable; and the freeing of a record (R53), with the lookup map and the catalogue in canonical form. -/
def Obligations.EvictionOrderAndFreeing : Prop :=
  (∀ s : State,
     let ok := fun n => (s.record n).evictable s.store.evictSent = true
     let rank := fun n => if (s.record n).state = .delivered then 0 else if (s.record n).state = .held then 1 else 2
     (victim s = none ↔ ∀ n ∈ s.store.ageList, ¬ok n) ∧
     (∀ n, victim s = some n → ∃ older newer, s.store.ageList = older ++ n :: newer ∧ ok n ∧
       (∀ m ∈ s.store.ageList, ok m → rank n ≤ rank m) ∧
       ∀ m ∈ older, ok m → (s.record m).state ≠ (s.record n).state) ∧
     ∀ n, ok n ↔
       ((s.record n).state = .delivered ∨ (s.record n).state = .held ∨
         ((s.record n).state = .sent ∧ s.store.evictSent = true)) ∧
       (s.record n).keep = false ∧ (s.record n).lineHold = false ∧ (s.record n).officeHold = false ∧
       (s.record n).verdictPending = false ∧ (s.record n).recallPending = false) ∧
  (∀ (s : State) (n : Nat) (r : FrameRecord), s.tablesOk → r = s.record n →
     let t := freeRecord n s
     t.store.freePages = s.store.freePages ++ r.chain ∧ t.store.freeRecords = s.store.freeRecords ++ [n] ∧
     t.store.ageList = s.store.ageList.filter (· ≠ n) ∧ t.lookup r.port r.frame = none ∧
     (∀ k m, frameKey k m ≠ frameKey r.port r.frame → t.lookup k m = s.lookup k m) ∧
     t.record n = { r with
       state := .free, chain := [], keep := false, lineHold := false, officeHold := false
       verdictPending := false, recallPending := false } ∧
     (∀ m, m ≠ n → t.record m = s.record m) ∧ t.events = s.events ∧
     evict n s = t.countGlobal .evictions 1)

/-! ### Shots (chapter 2) -/

/-- TRIGGER from the line controller creates a shot and answers its number; a choice byte outside 0 and 1 is refused and
creates none (R23, R24, R25, R26, R174 step 2); one from the office is refused WRONG_MASTER. A trigger edge creates a shot
when its pin mask is not empty, and otherwise changes nothing (R27). The premise that no open shot bears the next number can
fail, once 65,536 shots are newer than an open one (log entry 28). The count of pulses in shotCreated is the model's own field
(log entry 17). -/
def Obligations.TriggersCreateShots : Prop :=
  (∀ (s : State) (ref : Half) (mask keep tagPresent : Byte) (tag : Word),
     (∀ h ∈ s.shots.shots, h.number ≠ s.shots.next) →
     ((keep = 0 ∨ keep = 1) → (tagPresent = 0 ∨ tagPresent = 1) →
       ∃ u, shotCreated (withShotRoom (heard .line s)) u mask (decide (keep = 1))
           (if tagPresent = 1 then some tag else none) .request ∧
         exec (.trigger .line ref mask keep tagPresent tag) s =
           .next (answered .line (doneAnswer 0x06 ref (be16 s.shots.next)) u)) ∧
     ((keep ≠ 0 ∧ keep ≠ 1) ∨ (tagPresent ≠ 0 ∧ tagPresent ≠ 1) →
       exec (.trigger .line ref mask keep tagPresent tag) s =
         .next (answered .line (refusedAnswer 0x06 ref .badValue) (heard .line s)))) ∧
  (∀ (s : State) (ref : Half) (mask keep tagPresent : Byte) (tag : Word), takable .office s →
     exec (.trigger .office ref mask keep tagPresent tag) s =
       .next (answered .office (refusedAnswer 0x06 ref .wrongMaster) s)) ∧
  (∀ (s : State) (pin : Fin 4), (∀ h ∈ s.shots.shots, h.number ≠ s.shots.next) →
     (s.shots.pinMasks[pin] = 0 → exec (.triggerEdge pin) s = .next s) ∧
     (s.shots.pinMasks[pin] ≠ 0 → ∃ u,
       shotCreated (withShotRoom s) u s.shots.pinMasks[pin] false none (.pin pin) ∧
       exec (.triggerEdge pin) s = .next u))

/-- A trigger slot's expiry, its delay run out, drives the pulse, frees the slot and marks the port fired in the slot's shot if
that is still open, whatever the port's supervision state (R28). The count of pulses is the model's own field (log entry
17); that the command changes nothing while the slot is IDLE or has delay left is the model's (log entries 3 and 4), and so is
it that two open shots of one number are both marked, and that a newer open shot is marked which bears the number of the
slot's closed shot (log entry 28). -/
def Obligations.SlotExpiryPulsesPort : Prop :=
  ∀ (s : State) (k : Port),
    (∀ e, s.slot k = some e → e.remaining = 0 → exec (.triggerSlotExpiry k) s = .next { s with
      ctrg := s.ctrg.set k (s.ctrg[k] + 1)
      shots := { s.shots with
        slots := s.shots.slots.set k none
        shots := s.shots.shots.map fun h =>
          if h.number = e.shot then { h with fired := h.fired ||| portBit k } else h } }) ∧
    (s.slot k = none ∨ (∃ e, s.slot k = some e ∧ e.remaining ≠ 0) → exec (.triggerSlotExpiry k) s = .next s)

/-- TAG from the line controller reaches the shot and the records it references, and from the office is refused WRONG_MASTER
(R31); the rest of the device stands, but for the watchdog and the answer. QUERY_SHOT from either master: the shot's fields
in the layout of R174, or NOT_FOUND, and nothing else changes (R32). Where two open shots bear one number, which of them the
request means is the model's choice (log entry 28). -/
def Obligations.TagAndQueryShot : Prop :=
  (∀ (s : State) (ref n : Half) (v : Word), Table.wf FrameRecord.blank s.store.catalogue →
     (∀ h, s.shots.shots.find? (fun g => g.number = n) = some h → ∃ u,
       exec (.tag .line ref n v) s = .next (answered .line (doneAnswer 0x07 ref []) u) ∧
       (∀ i, u.record i =
         if i ∈ h.refs.map Prod.snd then { s.record i with tag := some v } else s.record i) ∧
       u = { s with
         shots := { (heard .line s).shots with
           shots := s.shots.shots.map fun g => if g.number = n then { g with tag := some v } else g }
         store := { s.store with catalogue := u.store.catalogue } }) ∧
     ((∀ h ∈ s.shots.shots, h.number ≠ n) →
       exec (.tag .line ref n v) s = .next (answered .line (refusedAnswer 0x07 ref .notFound) (heard .line s)))) ∧
  (∀ (s : State) (ref n : Half) (v : Word), takable .office s →
     exec (.tag .office ref n v) s = .next (answered .office (refusedAnswer 0x07 ref .wrongMaster) s)) ∧
  (∀ (s : State) (m : Master) (ref n : Half), takable m s →
     (∀ h, s.shots.shots.find? (fun g => g.number = n) = some h →
       exec (.queryShot m ref n) s = .next (answered m
         (doneAnswer 0x0A ref
           (be16 h.number ++ [if h.tag.isSome then 1 else 0] ++ be32 (h.tag.getD 0) ++
             [match h.origin with | .request => 0 | .pin i => byteOf (i.val + 1), h.wanted, h.fired, h.missed, h.seen,
               if h.keep then 1 else 0] ++ be16 (halfOf ((h.remaining + 999) / 1000)) ++ [byteOf h.refs.length] ++
             h.refs.flatMap fun p => byteOf p.1.val :: be16 (s.record p.2).frame)) (heard m s))) ∧
     ((∀ h ∈ s.shots.shots, h.number ≠ n) →
       exec (.queryShot m ref n) s = .next (answered m (refusedAnswer 0x0A ref .notFound) (heard m s))))

/-- VERDICT in the order of R34. Where two open shots bear one number, which of them it closes is the model's choice (log
entry 28). -/
def Obligations.VerdictHandledInOrder : Prop :=
  ∀ (s : State) (ref n : Half) (v : Byte),
    (3 ≤ v.toNat → exec (.verdict .line ref n v) s =
      .next (answered .line (refusedAnswer 0x08 ref .badValue) (heard .line s))) ∧
    (∀ h, v.toNat ≤ 2 → s.shots.shots.find? (fun g => g.number = n) = some h →
      exec (.verdict .line ref n v) s = .next (answered .line (doneAnswer 0x08 ref [])
        (closeShot (if v = 0 then .pass else if v = 1 then .reject else .review) h (heard .line s)))) ∧
    (v.toNat ≤ 2 → (∀ h ∈ s.shots.shots, h.number ≠ n) → n ∈ s.shots.window →
      exec (.verdict .line ref n v) s = .next (answered .line (bareAnswer 0x08 ref .late)
        (((heard .line s).raise .verdictLate).countGlobal .verdictsLate 1))) ∧
    (v.toNat ≤ 2 → (∀ h ∈ s.shots.shots, h.number ≠ n) → n ∉ s.shots.window →
      exec (.verdict .line ref n v) s =
        .next (answered .line (refusedAnswer 0x08 ref .notFound) (heard .line s))) ∧
    (takable .office s → exec (.verdict .office ref n v) s =
      .next (answered .office (refusedAnswer 0x08 ref .wrongMaster) s))

/-- The close of a shot with verdict `v` (R35, R36), for references to distinct records of distinct ports. Where two open shots
bear one number, that both leave the list is the model's choice (log entry 28). -/
def Obligations.CloseMarksAndPromotes : Prop :=
  ∀ (s t : State) (v : Verdict) (h : Shot), Table.wf FrameRecord.blank s.store.catalogue →
    (h.refs.map Prod.fst).Nodup → (h.refs.map Prod.snd).Nodup → (∀ p ∈ h.refs, (s.record p.2).port = p.1) →
    t = closeShot v h s →
    (∀ p ∈ h.refs, t.record p.2 = { s.record p.2 with
      verdictPending := false
      keep := (s.record p.2).keep || decide (v ≠ .pass)
      state := if promoted v s p then .queued else (s.record p.2).state }) ∧
    (∀ n, n ∉ h.refs.map Prod.snd → t.record n = s.record n) ∧
    (∀ p ∈ h.refs, t.liveQueue p.1 = if promoted v s p then s.liveQueue p.1 ++ [p.2] else s.liveQueue p.1) ∧
    (∀ k, k ∉ h.refs.map Prod.fst → t.liveQueue k = s.liveQueue k) ∧
    (∀ p ∈ h.refs, t.portCount p.1 .promoteFailed = s.portCount p.1 .promoteFailed +
      if v ≠ .pass ∧ (s.record p.2).state = .held ∧ (s.record p.2).recallPending = false ∧
        64 ≤ (s.liveQueue p.1).length then 1 else 0) ∧
    (∀ (k : Port) (c : PortCount), k ∉ h.refs.map Prod.fst ∨ c ≠ .promoteFailed → t.portCount k c = s.portCount k c) ∧
    t = { s with
      shots := { s.shots with shots := s.shots.shots.filter fun g => g.number ≠ h.number }
      store := { s.store with catalogue := t.store.catalogue }
      uplink := { s.uplink with live := t.uplink.live }
      events := { s.events with portCounts := t.events.portCounts } }

/-- A deadline's expiry closes its shot with the default verdict while ATTENDED and with REVIEW while LINE_SILENT; the expiry
of a shot already closed does not happen (R33, R39). The line watchdog's expiry (R39, R155). That the commands change nothing
while their timer is stopped or has time left is the model's (log entries 3 and 4), and so is it which of two open shots of
one number a deadline closes (log entry 28). -/
def Obligations.DeadlineAndWatchdogExpiries : Prop :=
  (∀ (s : State) (n : Half),
     (∀ h, s.shots.shots.find? (fun g => g.number = n) = some h → h.remaining = 0 → s.shots.lineState = .attended →
       exec (.deadlineExpiry n) s = .next (closeShot s.shots.defaultVerdict h s)) ∧
     (∀ h, s.shots.shots.find? (fun g => g.number = n) = some h → h.remaining = 0 → s.shots.lineState = .silent →
       exec (.deadlineExpiry n) s = .next (closeShot .review h s)) ∧
     (∀ h, s.shots.shots.find? (fun g => g.number = n) = some h → h.remaining ≠ 0 →
       exec (.deadlineExpiry n) s = .next s) ∧
     ((∀ h ∈ s.shots.shots, h.number ≠ n) → exec (.deadlineExpiry n) s = .next s)) ∧
  (∀ s : State, s.shots.watchdog ≠ some 0 → exec .lineWatchdogExpiry s = .next s) ∧
  (∀ s : State, s.shots.watchdog = some 0 → ∃ t, exec .lineWatchdogExpiry s = .next t ∧
     (∀ l : Fin 13, t.lock l = (s.lock l).filter fun e => e.holder ≠ .line) ∧
     t = { s with
       shots := { s.shots with lineState := .silent, watchdog := none }
       events := s.events.raise (.global .lineSilent)
       reqs := { s.reqs with
         lineBuffer := none, transfer := s.reqs.transfer.map fun x => { x with inBuffer := false }
         locks := t.reqs.locks } })

/-! ### The frame store (chapter 3) -/

/-- The end of the store's initialization: READY, every byte zero, every block sound (R59). FLUSH_STORE in the order of R60,
and what one that is taken does (R61, R30). -/
def Obligations.StoreInitAndFlush : Prop :=
  (∀ s : State, s.store.phase = .initializing → ∃ t, exec .storeInitEnd s = .next t ∧
     t.store.phase = .ready ∧ (∀ a, readByte t a = 0) ∧ (∀ b, t.blockHealth b = .sound) ∧
     t = { s with store := { s.store with phase := .ready, mem := t.store.mem, health := t.store.health } }) ∧
  (∀ (s : State) (ref : Half), Table.wf FrameRecord.blank s.store.catalogue →
     let active := (∃ k : Port, (s.sup k).state ≠ .disabled) ∨
       (∃ (k : Port) (n : Nat), n ∈ s.liveQueue k ∧ (s.record n).state = .sending) ∨
       ∃ e, s.recalls.queue.head? = some e ∧ e.started = true
     (takable .office s → exec (.flushStore .office ref) s =
       .next (answered .office (refusedAnswer 0x14 ref .wrongMaster) s)) ∧
     (active → exec (.flushStore .line ref) s =
       .next (answered .line (refusedAnswer 0x14 ref .portsActive) (heard .line s))) ∧
     (¬active → s.store.phase = .initializing → exec (.flushStore .line ref) s =
       .next (answered .line (bareAnswer 0x14 ref .retry) (heard .line s))) ∧
     (¬active → s.store.phase = .ready → ∃ u,
       exec (.flushStore .line ref) s = .next (answered .line (doneAnswer 0x14 ref []) u) ∧
       u.store.phase = .initializing ∧ u.store.freePages = ascending 0 (pagesOf s.store.memSize) ∧
       u.store.freeRecords = ascending 0 4096 ∧ u.store.ageList = [] ∧ (∀ k n, u.lookup k n = none) ∧
       (∀ n, (u.record n).state = .free) ∧ u.store.evictSent = s.store.evictSent ∧
       (∀ k : Port, u.liveQueue k = []) ∧ (∀ c : Chan, u.chan c = s.chan c) ∧ u.recalls.queue = [] ∧
       u.recalls.marks = s.recalls.marks ∧
       u.shots = { (heard .line s).shots with shots := s.shots.shots.map fun h => { h with refs := [] } } ∧
       u.events = s.events.raise (.global .storeFlushed) ∧ u.cams = s.cams ∧ u.sups = s.sups ∧ u.link = s.link ∧
       u.reqs = s.reqs))

/-- QUERY_FRAME from either master: the record's summary in the layout of R174, or NOT_FOUND (R63). -/
def Obligations.QueryFrameAnswersSummary : Prop :=
  ∀ (s : State) (m : Master) (ref : Half) (port : Byte) (frame : Half), takable m s →
    (∀ (k : Port) (n : Nat) (r : FrameRecord), port.toNat = k.val → s.lookup k frame = some n → r = s.record n →
      exec (.queryFrame m ref port frame) s = .next (answered m
        (doneAnswer 0x09 ref
          (be16 (halfOf n) ++ [byteOf r.state.code] ++ be32 (wordOf r.byteLength) ++
            be32 (wordOf ((r.byteLength + 543) / 512)) ++ be32 (wordOf r.cellsSent) ++
            [r.flags.setWidth 8,
              byteOf (bitCode r.readError + 2 * bitCode r.keep + 4 * bitCode r.lineHold + 8 * bitCode r.officeHold +
                16 * bitCode r.verdictPending + 32 * bitCode r.recallPending +
                64 * bitCode (r.evictable s.store.evictSent)),
              byteOf (bitCode r.shot.isSome + 2 * bitCode r.tag.isSome)] ++
            be16 (r.shot.getD 0) ++ be32 (r.tag.getD 0) ++ be16 r.camera ++ be16 (halfOf r.width) ++
            be16 (halfOf r.height) ++ [byteOf r.bpp])) (heard m s))) ∧
    (8 ≤ port.toNat ∨ (∃ k : Port, port.toNat = k.val ∧ s.lookup k frame = none) →
      exec (.queryFrame m ref port frame) s =
        .next (answered m (refusedAnswer 0x09 ref .notFound) (heard m s)))

/-! ### Port supervision (chapter 4) -/

/-- A write of enable (R66), not barred by the other master's lock; a disable abandons a dark visit of the port (R84). The
stop truncates and completes every incomplete record of the port, those on the completion list first, then the assembling
one (R18), when the damaged policy keeps them. -/
def Obligations.EnableWriteStartsAndStops : Prop :=
  (∀ (s : State) (m : Master) (ref : Half) (k : Port) (v : Word),
     takable m s → unbarred m (chanRecord (chanOf k)) s →
     (2 ≤ v.toNat → exec (.enableWrite m ref k v) s =
       .next (answered m (refusedAnswer 0x02 ref .badValue) (heard m s))) ∧
     ((v = 1 ∧ (s.sup k).state ≠ .disabled) ∨ (v = 0 ∧ (s.sup k).state = .disabled) →
       exec (.enableWrite m ref k v) s = .next (answered m (doneAnswer 0x02 ref (be32 v)) (heard m s))) ∧
     (v = 1 → (s.sup k).state = .disabled → (s.sup k).warmupArmed = false →
       exec (.enableWrite m ref k v) s = .next (answered m (doneAnswer 0x02 ref (be32 1))
         ((heard m s).modSup k fun u => { u with state := .run, overCount := 0, tripDue := false }))) ∧
     (v = 1 → (s.sup k).state = .disabled → (s.sup k).warmupArmed = true →
       exec (.enableWrite m ref k v) s = .next (answered m (doneAnswer 0x02 ref (be32 1))
         (((heard m s).modSup k fun u =>
           { u with state := .warmup, warmupTimer := some (warmupTime u.warmupLength), warmupCompletions := 0 }).modChan
           (chanOf k) fun c => { c with credit := if c.target = 0 then c.credit else 16 * c.ceiling }))) ∧
     (v = 0 → (s.sup k).state ≠ .disabled → ∃ t,
       exec (.enableWrite m ref k v) s = .next (answered m (doneAnswer 0x02 ref (be32 0)) t) ∧
       t.sup k = { s.sup k with
         state := .disabled, warmupTimer := none, throttleTimer := none, overCount := 0, tripDue := false
         calmCount := 0, decimationCount := 0, warmupCompletions := 0, blanking := 0, throttleExit := .none } ∧
       (∀ j : Port, j ≠ k → t.sup j = s.sup j) ∧ (∀ c : Chan, t.chan c = s.chan c) ∧ receptionStopped k s t ∧
       visitAbandoned k s t ∧ t.link = s.link ∧ t.reqs = s.reqs ∧ t.recalls = s.recalls)) ∧
  (∀ (s : State) (m : Master) (ref : Half) (k : Port) (todo : List Nat),
     takable m s → unbarred m (chanRecord (chanOf k)) s → (s.sup k).state ≠ .disabled →
     todo = (s.cam k).completion ++ (s.cam k).current.toList → todo.Nodup →
     (∀ n ∈ todo, (s.record n).state = .filling) → (s.cam k).policy ≠ .discard →
     Table.wf FrameRecord.blank s.store.catalogue →
     ∃ t, exec (.enableWrite m ref k 0) s = .next (answered m (doneAnswer 0x02 ref (be32 0)) t) ∧
       t.store.ageList = s.store.ageList ++ todo ∧
       (∀ n ∈ todo, t.record n = { s.record n with
         flags := (s.record n).flags ||| 0x20, state := (t.record n).state } ∧
         ((t.record n).state = .queued ∨ (t.record n).state = .held)) ∧
       ∀ n, n ∉ todo → t.record n = s.record n)

/-- A write of warm-up armed (R67), and its ending of a warm-up (R68). Warm-up expiry (R68): WARMUP_TIMEOUT, then RUN with
blanking 32. At either end a dark test that waits on the port starts (R84). That the expiry's command changes nothing while
the timer is stopped or has time left is the model's (log entries 3 and 4). -/
def Obligations.WarmupArmedAndExpiry : Prop :=
  (∀ (s : State) (m : Master) (ref : Half) (k : Port) (v : Word),
     takable m s → unbarred m (chanRecord (chanOf k)) s →
     (2 ≤ v.toNat → exec (.warmupArmedWrite m ref k v) s =
       .next (answered m (refusedAnswer 0x02 ref .badValue) (heard m s))) ∧
     (v = 0 → (s.sup k).state ≠ .warmup →
       exec (.warmupArmedWrite m ref k v) s = .next (answered m (doneAnswer 0x02 ref (be32 0))
         ((heard m s).modSup k fun u => { u with warmupArmed := false }))) ∧
     (v = 0 → (s.sup k).state = .warmup →
       exec (.warmupArmedWrite m ref k v) s =
         .next (answered m (doneAnswer 0x02 ref (be32 0)) (warmupEnded k (heard m s)))) ∧
     (v = 1 → (s.sup k).state = .disabled →
       exec (.warmupArmedWrite m ref k v) s = .next (answered m (doneAnswer 0x02 ref (be32 1))
         ((heard m s).modSup k fun u => { u with warmupArmed := true }))) ∧
     (v = 1 → (s.sup k).state ≠ .disabled →
       exec (.warmupArmedWrite m ref k v) s = .next (answered m
         (doneAnswer 0x02 ref (be32 (if (s.sup k).warmupArmed then 1 else 0))) (heard m s)))) ∧
  (∀ (s : State) (k : Port), (s.sup k).state = .warmup →
     ((s.sup k).warmupTimer = some 0 →
       exec (.warmupExpiry k) s = .next (warmupEnded k (s.raisePort k .warmupTimeout))) ∧
     ((s.sup k).warmupTimer ≠ some 0 → exec (.warmupExpiry k) s = .next s))

/-- A write of the trip threshold: stored up to 255, over-count 0, no blanking started (R80, R81). A write of the line
watchdog field restarts the watchdog; OFF stops it, and while LINE_SILENT it stays stopped (R38). That a TRIP due waits for
its command, and that a threshold write drops it with the over-count, is the model's (log entries 5 and 21). -/
def Obligations.ThresholdAndWatchdogWrites : Prop :=
  (∀ (s : State) (m : Master) (ref : Half) (k : Port) (v : Word),
     takable m s → unbarred m (chanRecord (chanOf k)) s →
     exec (.tripThresholdWrite m ref k v) s =
       .next (answered m (doneAnswer 0x02 ref (be32 (wordOf (min v.toNat 255))))
         ((heard m s).modSup k fun u => { u with threshold := min v.toNat 255, overCount := 0, tripDue := false }))) ∧
  (∀ (s : State) (m : Master) (ref : Half) (v : Word) (p : Fin 4), takable m s → unbarred m 12 s → v.toNat = p.val →
     exec (.lineWatchdogWrite m ref v) s = .next (answered m (doneAnswer 0x02 ref (be32 v))
       { s with shots := { s.shots with
         lineState := if m = .line then .attended else s.shots.lineState
         watchdogPeriod := p
         watchdog := if m = .office ∧ s.shots.lineState = .silent then none
           else match p with | 0 => none | 1 => some 1000000 | 2 => some 2000000 | 3 => some 8000000 } }))

/-- A round mark at every supervisor (R69, R70, R71, R74) and channel (R94, R95), with nothing due from earlier marks. The
TRIP, the return to calm and the slew step it makes due are taken by their own commands (log entry 5). -/
def Obligations.RoundMarkClosesRound : Prop :=
  ∀ s : State,
    (∀ k : Port, (s.sup k).tripDue = false ∧ (s.sup k).calmCount < 256 ∧ (s.sup k).loadBytes / 512 ≤ 65535) →
    (∀ c : Chan, (s.chan c).stepDue = false) →
    ∃ t, exec .roundMark s = .next t ∧
      (∀ k : Port, let u := s.sup k
        let load := u.loadBytes / 512
        let above := decide (u.state = .run ∧ u.blanking = 0 ∧ u.threshold ≠ 0 ∧ u.threshold < load)
        t.sup k = { u with
          loadBytes := 0
          lastLoad := load
          blanking := if u.state = .disabled then u.blanking else u.blanking - 1
          overCount := if u.state ≠ .run then u.overCount else if above then u.overCount + 1 else 0
          tripDue := above && decide (deglitchRounds u.deglitch ≤ u.overCount + 1)
          calmCount := if u.state ≠ .throttled then u.calmCount
            else if u.threshold = 0 ∨ load ≤ u.threshold then u.calmCount + 1 else 0 }) ∧
      (∀ c : Chan, let h := s.chan c
        let slewing := decide (h.slewCode ≠ 0 ∧ h.rate ≠ h.target)
        t.chan c = { h with
          credit := min (h.credit + h.rate) (16 * h.ceiling)
          countdown := if slewing = false then h.countdown
            else if h.countdown ≤ 1 then slewPeriod h.slewCode else h.countdown - 1
          stepDue := slewing && decide (h.countdown ≤ 1) }) ∧
      t = { s with sups := t.sups, uplink := { s.uplink with chans := t.uplink.chans } }

/-- A slew step that has fallen due moves the rate toward the target and never past it (R96). That it waits, due, for a command
of its own is the model's (log entry 5). -/
def Obligations.SlewStepMovesRate : Prop :=
  ∀ (s : State) (c : Chan) (h : Channel), h = s.chan c → h.stepDue = true →
    exec (.slewStep c) s = .next (s.modChan c fun _ => { h with
      rate := if h.rate < h.target then h.rate + slewStepSize h else h.rate - slewStepSize h
      stepDue := false }) ∧
    (h.rate < h.target → h.rate + slewStepSize h ≤ h.target) ∧
    (h.target < h.rate → h.target ≤ h.rate - slewStepSize h ∧ slewStepSize h ≤ h.rate) ∧
    (h.rate = h.target → slewStepSize h = 0)

/-- A TRIP by the trip mode, once the over-count of a port in RUN has reached the deglitch count (R72, R73, R75, R76); the
return to calm once 256 consecutive rounds were calm (R74); the throttle timer's expiry by the throttle exit (R75, R76, R77),
which does not happen once the calm count has reached 256 (R75). TRIPPED entry abandons a dark test of the port (R84). That
a trip or a return due waits for its own command is the model's (log entry 5), and so is it that the expiry's command
changes nothing while the timer is stopped or has time left (log entries 3 and 4). -/
def Obligations.TripCalmAndTimeoutTransitions : Prop :=
  (∀ (s : State) (k : Port), (s.sup k).state = .run → (s.sup k).tripDue = true →
     let throttled := fun (exit : ThrottleExit) (timer : Option Nat) =>
       (s.raisePort k .trip).modSup k fun u =>
         { u with
           state := .throttled, overCount := 0, tripDue := false, calmCount := 0, decimationCount := 0
           throttleExit := exit, throttleTimer := timer }
     ((s.sup k).tripMode = .report → exec (.trip k) s =
       .next ((s.raisePort k .trip).modSup k fun u => { u with overCount := 0, tripDue := false })) ∧
     ((s.sup k).tripMode = .throttle → exec (.trip k) s = .next (throttled .none none)) ∧
     ((s.sup k).tripMode = .throttleOff → exec (.trip k) s =
       .next (throttled .toTripped (some (throttleTime (s.sup k).throttleTimeout)))) ∧
     ((s.sup k).tripMode = .throttleRelease → exec (.trip k) s =
       .next (throttled .toUnguarded (some (throttleTime (s.sup k).throttleTimeout)))) ∧
     ((s.sup k).tripMode = .latch → ∃ t, exec (.trip k) s = .next t ∧ trippedEntry k (s.raisePort k .trip) t)) ∧
  (∀ (s : State) (k : Port), (s.sup k).state = .throttled → (s.sup k).calmCount = 256 →
     exec (.calmReturn k) s = .next (s.modSup k fun u =>
       { u with
         state := .run, throttleTimer := none, throttleExit := .none, calmCount := 0, decimationCount := 0
         overCount := 0, tripDue := false })) ∧
  (∀ (s : State) (k : Port), (s.sup k).state = .throttled →
     256 ≤ (s.sup k).calmCount ∨ (s.sup k).throttleTimer ≠ some 0 → exec (.throttleTimeout k) s = .next s) ∧
  (∀ (s : State) (k : Port), (s.sup k).state = .throttled → (s.sup k).throttleTimer = some 0 →
     (s.sup k).calmCount < 256 →
     ((s.sup k).throttleExit = .toUnguarded → exec (.throttleTimeout k) s =
       .next ((s.raisePort k .throttleTimeout).modSup k fun u =>
         { u with
           state := .unguarded, overCount := 0, tripDue := false, calmCount := 0, decimationCount := 0
           throttleExit := .none, throttleTimer := none })) ∧
     ((s.sup k).throttleExit = .toTripped → ∃ t, exec (.throttleTimeout k) s = .next t ∧
       trippedEntry k (s.raisePort k .throttleTimeout) t))

/-- CLEAR_FAULT from either master by the supervision state (R78): locks play no part, and a new dark-port pass starts (R83).
That the pass sees the supervision state just set, and that a due TRIP is dropped, is the model's (log entry 21). -/
def Obligations.ClearFaultBySupervisionState : Prop :=
  ∀ (s : State) (m : Master) (ref : Half) (port : Byte), takable m s →
    (8 ≤ port.toNat → exec (.clearFault m ref port) s =
      .next (answered m (refusedAnswer 0x11 ref .notFound) (heard m s))) ∧
    ∀ (k : Port) (u : State), port.toNat = k.val →
      u = (heard m s).modSup k (fun p =>
        { p with
          state := if p.state = .tripped ∨ p.state = .unguarded then .run else p.state
          overCount := if p.state = .tripped ∨ p.state = .unguarded ∨ p.state = .run then 0 else p.overCount
          tripDue := if p.state = .tripped ∨ p.state = .unguarded ∨ p.state = .run then false else p.tripDue
          throttleTimer := if p.state = .throttled then
              p.throttleTimer.map fun _ => throttleTime p.throttleTimeout
            else p.throttleTimer
          blanking := if p.state = .disabled then p.blanking else 32 }) →
      exec (.clearFault m ref port) s =
        .next (answered m (doneAnswer 0x11 ref []) { u with dark := nextVisit allPorts u })

/-- A dark test's expiry sets DARK and visits the next masked port; a write of the dark mask starts a pass from the lowest
masked port (R83, R84, R85). That the expiry's command changes nothing while the timer has time left is the model's (log
entry 3), and which port stays current when no port is left to test (log entry 26). -/
def Obligations.DarkDetectorVisits : Prop :=
  ∀ s : State,
    (s.dark.pass ≠ .testing ∨ s.dark.timer ≠ some 0 → exec .darkTestExpiry s = .next s) ∧
    (s.dark.pass = .testing → s.dark.timer = some 0 → exec .darkTestExpiry s =
      .next { s.raisePort s.dark.current .dark with dark := nextVisit (portsAbove s.dark.current) s }) ∧
    ∀ (m : Master) (ref : Half) (v : Word) (u : State), takable m s → unbarred m 12 s →
      u = ({ heard m s with dark := { s.dark with mask := v.setWidth 8 } } : State) →
      exec (.darkMaskWrite m ref v) s =
        .next (answered m (doneAnswer 0x02 ref (be32 (v &&& 0xFF))) { u with dark := nextVisit allPorts u })

/-! ### Uplink scheduling (chapter 5) -/

/-- A target write (R89, R90, R70): clamped to the grade maximum, then the first case that applies; PORT_TRIPPED on the
channel of a TRIPPED port. A slew step that the last round mark made due is taken before the write acts, and so never lost
(R95): that it may still be due then is the model's (log entries 5 and 21). -/
def Obligations.TargetWriteByCase : Prop :=
  ∀ (s : State) (m : Master) (ref : Half) (c : Chan) (v : Word) (h : Channel) (t : Nat),
    takable m s → unbarred m (chanRecord c) s → h = slewed (s.chan c) → t = min v.toNat (gradeMaximum s.link.grade) →
    (∀ k : Port, c = chanOf k → (s.sup k).state = .tripped → exec (.targetWrite m ref c v) s =
      .next (answered m (refusedAnswer 0x02 ref .portTripped) (heard m s))) ∧
    ((∀ k : Port, c = chanOf k → (s.sup k).state ≠ .tripped) → ∃ h' u,
      exec (.targetWrite m ref c v) s = .next (answered m (doneAnswer 0x02 ref (be32 (wordOf t))) u) ∧
      (t = 0 → h' = { h with target := 0, rate := 0, credit := 0 }) ∧
      (t ≠ 0 → h.slewCode = 0 → h' = { h with target := t, rate := t }) ∧
      (t ≠ 0 → h.slewCode ≠ 0 → h.rate = 0 → h' = { h with
        target := t, rate := min h.startRate t, countdown := slewPeriod h.slewCode }) ∧
      (t ≠ 0 → h.slewCode ≠ 0 → h.rate ≠ 0 → h' = { h with target := t }) ∧
      (c = 8 → u = (heard m s).modChan c fun _ => h') ∧
      ∀ k : Port, c = chanOf k → u = ((heard m s).modChan c fun _ => h').modSup k fun p =>
        { p with blanking := if p.state = .disabled then p.blanking else 32 })

/-- A ceiling write: stored as clamped by R89, and the credit cut to the new cap (R92). A slew code write (R93); a code above
7 is refused BAD_VALUE (R89). A slew step that the last round mark made due is taken before the slew code changes (R95): that
it may still be due then is the model's (log entries 5 and 21). -/
def Obligations.CeilingAndSlewCodeWrites : Prop :=
  (∀ (s : State) (m : Master) (ref : Half) (c : Chan) (v : Word) (n : Nat),
     takable m s → unbarred m (chanRecord c) s →
     n = (if v.toNat = 0 then 1 else if 4095 < v.toNat then 4095 else v.toNat) →
     exec (.ceilingWrite m ref c v) s = .next (answered m (doneAnswer 0x02 ref (be32 (wordOf n)))
       ((heard m s).modChan c fun h =>
         { h with ceiling := n, credit := if 16 * n < h.credit then 16 * n else h.credit }))) ∧
  (∀ (s : State) (m : Master) (ref : Half) (c : Chan) (v : Word),
     takable m s → unbarred m (chanRecord c) s →
     (8 ≤ v.toNat → exec (.slewCodeWrite m ref c v) s =
       .next (answered m (refusedAnswer 0x02 ref .badValue) (heard m s))) ∧
     (v = 0 → exec (.slewCodeWrite m ref c v) s = .next (answered m (doneAnswer 0x02 ref (be32 0))
       ((heard m s).modChan c fun h => { slewed h with slewCode := 0, rate := h.target, countdown := 0 }))) ∧
     ∀ code : Fin 8, v.toNat = code.val → code ≠ 0 →
       exec (.slewCodeWrite m ref c v) s = .next (answered m (doneAnswer 0x02 ref (be32 v))
         ((heard m s).modChan c fun h =>
           { slewed h with slewCode := code, countdown := 2 ^ (code.val - 1) })))

/-- The slot arbiter (R98, R99): a credit grant to the first credit-eligible channel after the last so granted, at 16
units; else a surplus grant without charge; else idle fill. The cell sent is the model's own field (log entry 17). -/
def Obligations.ArbiterGrantsSlot : Prop :=
  ∀ (s : State) (errors : List MemError),
    let payer := fun c : Chan => hasCell s c ∧ 16 ≤ (s.chan c).credit
    let spare := fun c : Chan => hasCell s c ∧ (s.chan c).surplus = true
    (∀ c, payer c → (∀ b, payer b → turnAfter s.uplink.lastCredit c ≤ turnAfter s.uplink.lastCredit b) →
      ∃ t, exec (.dataSlot errors) s = .next t ∧ t.uplink.lastCredit = c ∧
        t.uplink.lastSurplus = s.uplink.lastSurplus ∧ (t.chan c).credit = (s.chan c).credit - 16 ∧
        ∀ b, b ≠ c → (t.chan b).credit = (s.chan b).credit) ∧
    (∀ c, (∀ b, ¬payer b) → spare c →
      (∀ b, spare b → turnAfter s.uplink.lastSurplus c ≤ turnAfter s.uplink.lastSurplus b) →
      ∃ t, exec (.dataSlot errors) s = .next t ∧ t.uplink.lastCredit = s.uplink.lastCredit ∧
        t.uplink.lastSurplus = c ∧ ∀ b, (t.chan b).credit = (s.chan b).credit) ∧
    ((∀ b, ¬payer b) → (∀ b, ¬spare b) → exec (.dataSlot []) s = .next { s with
      uplink := { s.uplink with sent := some (idleFill s.link.state) } })

/-- A data slot granted to camera channel `k` with record `n` at the head of its live queue (R101, R103, R168, R169): the whole
next state while no block read is in error, and whatever the blocks' health, what their errors do to the cell, the record and
the counts (R56, R57). `r` is the record at the grant, `last` whether the cell is its last. That cell 0's descriptor shows the
read error as it stood before cell 0's own blocks are read (R58, R101) is the model's reading (log entry 10). The cell sent is
the model's own field (log entry 17), and how errors come about is its choice (log entry 11). -/
def Obligations.DataSlotSendsLiveCell : Prop :=
  (∀ (s p : State) (errors : List MemError) (k : Port) (n : Nat) (q : List Nat) (r : FrameRecord),
    p = errors.foldl spoilBlock s →
    creditWinner s = some (chanOf k) ∨ (creditWinner s = none ∧ surplusWinner s = some (chanOf k)) →
    s.liveQueue k = n :: q →
    r = (if (s.record n).state = .sending then s.record n
      else { s.record n with state := .sending, cellsSent := 0 }) →
    r.cellsSent < r.cellCount → ∃ t, exec (.dataSlot errors) s = .next t ∧ cellReported p t (chanOf k) n r) ∧
  ∀ (s : State) (k : Port) (n : Nat) (q : List Nat) (r : FrameRecord) (last : Bool),
    creditWinner s = some (chanOf k) ∨ (creditWinner s = none ∧ surplusWinner s = some (chanOf k)) →
    s.liveQueue k = n :: q →
    r = (if (s.record n).state = .sending then s.record n
      else { s.record n with state := .sending, cellsSent := 0 }) →
    r.cellsSent < r.cellCount → bytesSound s r (cellRange r r.cellsSent).1 (cellRange r r.cellsSent).2 →
    last = decide (r.cellsSent + 1 = r.cellCount) →
    ∃ t, exec (.dataSlot []) s = .next t ∧
      t.uplink.sent = some (soundCell s (chanOf k) r r.cellsSent) ∧
      t.record n = { r with cellsSent := r.cellsSent + 1, state := if last then .sent else .sending } ∧
      t.liveQueue k = (if last then q else n :: q) ∧ (∀ j : Port, j ≠ k → t.liveQueue j = s.liveQueue j) ∧
      (last → (t.chan (chanOf k)).current = none) ∧
      (¬last → (s.record n).state ≠ .sending → (t.chan (chanOf k)).current = some n) ∧
      t.events = (s.count k .cellsLive).events ∧ t.recalls = s.recalls ∧ t.store.ageList = s.store.ageList ∧
      t.store.mem = s.store.mem ∧ t.cams = s.cams ∧ t.sups = s.sups ∧ t.shots = s.shots ∧ t.link = s.link

/-- A data slot granted to channel 8 with entry `e` at the head of the recall queue (R104, R112, R113, R169): the whole next state
while no block read is in error, and whatever the blocks' health, what their errors do to the cell, the record and the counts
(R56, R57). That cell 0's descriptor shows the read error as it stood before cell 0's own blocks are read (R58, R101) is the
model's reading (log entry 10). The cell sent is the model's own field (log entry 17), and how errors come about is its choice
(log entry 11). -/
def Obligations.DataSlotSendsRecallCell : Prop :=
  (∀ (s p : State) (errors : List MemError) (e : RecallEntry) (q : List RecallEntry) (r : FrameRecord),
    p = errors.foldl spoilBlock s →
    creditWinner s = some 8 ∨ (creditWinner s = none ∧ surplusWinner s = some 8) →
    s.recalls.queue = e :: q → (s.record e.record).state ≠ .free →
    r = (if e.started then s.record e.record else { s.record e.record with cellsSent := 0 }) →
    r.cellsSent < r.cellCount → ∃ t, exec (.dataSlot errors) s = .next t ∧ cellReported p t 8 e.record r) ∧
  ∀ (s : State) (e : RecallEntry) (q : List RecallEntry) (r : FrameRecord) (last : Bool),
    creditWinner s = some 8 ∨ (creditWinner s = none ∧ surplusWinner s = some 8) →
    s.recalls.queue = e :: q → (s.record e.record).state ≠ .free →
    r = (if e.started then s.record e.record else { s.record e.record with cellsSent := 0 }) →
    r.cellsSent < r.cellCount → bytesSound s r (cellRange r r.cellsSent).1 (cellRange r r.cellsSent).2 →
    last = decide (r.cellsSent + 1 = r.cellCount) →
    ∃ t, exec (.dataSlot []) s = .next t ∧
      t.uplink.sent = some (soundCell s 8 r r.cellsSent) ∧
      t.record e.record = { r with
        cellsSent := r.cellsSent + 1
        recallPending := if last then false else r.recallPending
        state := if last ∧ r.state = .held then .sent else r.state } ∧
      t.recalls.queue = (if last then q else { e with started := true } :: q) ∧
      (last → (t.chan 8).current = none) ∧
      (¬last → e.started = false → (t.chan 8).current = some e.record) ∧
      t.events = (s.countGlobal .cellsRecall 1).events ∧ t.uplink.live = s.uplink.live ∧
      t.recalls.marks = s.recalls.marks ∧ t.store.ageList = s.store.ageList ∧ t.store.mem = s.store.mem ∧
      t.shots = s.shots ∧ t.link = s.link

/-- A block read for a cell (R56, R57, R58): a corrected error counts CORRECTED and changes nothing else; an uncorrectable
one poisons the cell, counts UNCORRECTABLE, sets STORE_ECC and marks the record, whatever the bytes handed over. -/
def Obligations.BlockErrorsReported : Prop :=
  ∀ (s t : State) (n lo hi : Nat) (bytes : List Byte) (poison : Bool) (r : FrameRecord),
    r = s.record n → (bytes, poison, t) = readBlock n lo hi s →
    let health := s.blockHealth (frameAddress r.chain lo / 64)
    (health = .sound → bytes = frameBytes s r lo hi ∧ poison = false ∧ t = s) ∧
    (health = .correctable →
      bytes = frameBytes s r lo hi ∧ poison = false ∧ t = s.countGlobal .corrected 1) ∧
    (health = .uncorrectable → r.state ≠ .free →
      poison = true ∧ bytes.length = hi - lo ∧ t.record n = { r with readError := true } ∧
      t.events = ((s.countGlobal .uncorrectable 1).raise .storeEcc).events ∧ t.store.mem = s.store.mem ∧
      t.store.health = s.store.health ∧ t.uplink = s.uplink)

/-! ### Recall, receipts and holds (chapter 6) -/

/-- RECALL by the first row of R109's table that applies. -/
def Obligations.RecallByTable : Prop :=
  ∀ (s : State) (ref : Half) (port : Byte) (frame : Half),
    (exec (.recallFrame .line ref port frame) s =
      .next (answered .line (refusedAnswer 0x0B ref .wrongMaster) (heard .line s))) ∧
    (takable .office s →
      (8 ≤ port.toNat ∨ (∃ k : Port, port.toNat = k.val ∧ s.lookup k frame = none) →
        exec (.recallFrame .office ref port frame) s =
          .next (answered .office (refusedAnswer 0x0B ref .notFound) s)) ∧
      ∀ (k : Port) (n : Nat) (r : FrameRecord), port.toNat = k.val → s.lookup k frame = some n → r = s.record n →
        let merges := r.state = .filling ∨ r.state = .queued ∨ r.state = .sending ∨ r.recallPending = true
        (merges → exec (.recallFrame .office ref port frame) s =
          .next (answered .office (doneAnswer 0x0B ref [0]) s)) ∧
        (¬merges → 16 ≤ s.recalls.queue.length → exec (.recallFrame .office ref port frame) s =
          .next (answered .office (bareAnswer 0x0B ref .retry) s)) ∧
        (¬merges → s.recalls.queue.length < 16 → exec (.recallFrame .office ref port frame) s =
          .next (answered .office (doneAnswer 0x0B ref [1])
            (({ s with
              recalls := { s.recalls with
                queue := s.recalls.queue ++ [{ record := n, started := false }] } } : State).setRecord n
              { r with recallPending := true }))))

/-- RECEIPT (R114, R115, R116): from the office outside UP it is not taken and changes nothing (R124, R135); in UP a receipt of
no port changes nothing; otherwise the mark is clamped to the last issued frame number, tested against the stored mark,
stored, and makes the SENT records it covers DELIVERED. That the row leaves the window's tallies as they stand is the model's
choice (log entry 7). -/
def Obligations.ReceiptClampedAndApplied : Prop :=
  ∀ (s : State) (ref : Half) (port : Byte) (mark : Half), Table.wf FrameRecord.blank s.store.catalogue →
    (exec (.receipt .line ref port mark) s =
      .next (answered .line (refusedAnswer 0x0C ref .wrongMaster) (heard .line s))) ∧
    (s.link.state ≠ .up → exec (.receipt .office ref port mark) s = .next s) ∧
    (s.link.state = .up → 8 ≤ port.toNat → exec (.receipt .office ref port mark) s = .next s) ∧
    ∀ (k : Port) (last m : Half), s.link.state = .up → port.toNat = k.val → last = (s.cam k).nextFrame - 1 →
      m = (if 32768 ≤ (last - mark).toNat then last else mark) →
      (32768 ≤ (m - s.recalls.marks[k]).toNat → exec (.receipt .office ref port mark) s = .next s) ∧
      ((m - s.recalls.marks[k]).toNat < 32768 → ∃ t, exec (.receipt .office ref port mark) s = .next t ∧
        t.recalls = { s.recalls with marks := s.recalls.marks.set k m } ∧
        (∀ n, t.record n =
          if (s.record n).port = k ∧ (s.record n).state = .sent ∧ (m - (s.record n).frame).toNat < 32768 then
            { s.record n with state := .delivered }
          else s.record n) ∧
        t = { s with recalls := t.recalls, store := { s.store with catalogue := t.store.catalogue } })

/-- HOLD and UNHOLD from either master act on the sender's own hold; RELEASE_KEEP from the office clears the keep mark
(R118, R119). -/
def Obligations.HoldsAndKeepReleases : Prop :=
  ∀ (s : State) (m : Master) (ref : Half) (port : Byte) (frame : Half), takable m s →
    (8 ≤ port.toNat ∨ (∃ k : Port, port.toNat = k.val ∧ s.lookup k frame = none) →
      exec (.hold m ref port frame) s = .next (answered m (refusedAnswer 0x0D ref .notFound) (heard m s)) ∧
      exec (.unhold m ref port frame) s = .next (answered m (refusedAnswer 0x0E ref .notFound) (heard m s)) ∧
      (m = .office → exec (.releaseKeep m ref port frame) s =
        .next (answered m (refusedAnswer 0x0F ref .notFound) s))) ∧
    (m = .line → exec (.releaseKeep m ref port frame) s =
      .next (answered m (refusedAnswer 0x0F ref .wrongMaster) (heard m s))) ∧
    ∀ (k : Port) (n : Nat) (r : FrameRecord), port.toNat = k.val → s.lookup k frame = some n → r = s.record n →
      exec (.hold m ref port frame) s = .next (answered m (doneAnswer 0x0D ref [])
        ((heard m s).setRecord n { r with
          lineHold := if m = .line then true else r.lineHold
          officeHold := if m = .office then true else r.officeHold })) ∧
      exec (.unhold m ref port frame) s = .next (answered m (doneAnswer 0x0E ref [])
        ((heard m s).setRecord n { r with
          lineHold := if m = .line then false else r.lineHold
          officeHold := if m = .office then false else r.officeHold })) ∧
      (m = .office → exec (.releaseKeep m ref port frame) s =
        .next (answered m (doneAnswer 0x0F ref []) (s.setRecord n { r with keep := false })))

/-! ### The fibre link (chapter 7) -/

/-- The end of a window by link state (R124, R125, R126, R128). -/
def Obligations.WindowEndJudged : Prop :=
  ∀ (s b : State) (w : Window), s.link.window = some w →
    b = ({ s with link := { s.link with window := some { valid := 0, failures := 0 } } } : State) →
    let good := 1 ≤ w.valid ∧ w.failures ≤ 4
    let up := ({ b with
      link := { b.link with state := .up, goodRun := 0, badRun := 0, recovery := none } } : State).raise .linkUp
    (s.link.state = .aligning ∨ s.link.state = .recovering →
      (¬good → exec .windowEnd s = .next { b with link := { b.link with goodRun := 0 } }) ∧
      (good → s.link.goodRun = 0 → exec .windowEnd s = .next { b with link := { b.link with goodRun := 1 } })) ∧
    (s.link.state = .aligning → good → 1 ≤ s.link.goodRun → exec .windowEnd s = .next up) ∧
    (s.link.state = .recovering → good → 1 ≤ s.link.goodRun →
      exec .windowEnd s = .next (up.countGlobal .linkRecovered 1)) ∧
    (s.link.state = .up →
      (good → exec .windowEnd s = .next { b with link := { b.link with badRun := 0 } }) ∧
      (¬good → s.link.badRun + 1 < faultCount s.link.faultCode →
        exec .windowEnd s = .next { b with link := { b.link with badRun := s.link.badRun + 1 } }))

/-- The link leaves UP: the bad run reaches the fault count, or light is lost (R123, R126, R127, R128, R106, R155). The
premises say that a record heads one live queue at most and that no recalled record is being sent live. -/
def Obligations.LeavingUpUndoesSends : Prop :=
  ∀ (s : State), s.link.state = .up → Table.wf FrameRecord.blank s.store.catalogue →
    (∀ (j k : Port) (n : Nat), (s.liveQueue j).head? = some n → (s.liveQueue k).head? = some n → j = k) →
    (∀ e, s.recalls.queue.head? = some e → (s.record e.record).state ≠ .sending) →
    (∀ w, s.link.window = some w → ¬(1 ≤ w.valid ∧ w.failures ≤ 4) →
      faultCount s.link.faultCode ≤ s.link.badRun + 1 → ∃ t, exec .windowEnd s = .next t ∧ linkDeparted s t ∧
        t.link = { s.link with
          state := .recovering, goodRun := 0, badRun := 0, recovery := some 20000
          window := some { valid := 0, failures := 0 } }) ∧
    ∃ t, exec .lossOfLight s = .next t ∧ linkDeparted s t ∧
      t.link = { s.link with state := .down, goodRun := 0, badRun := 0, window := none, recovery := none }

/-- Loss of light outside UP, and the return of light (R123); the recovery timer's expiry halts the link (R129); RESTART_LINK
by the link state (R131). That loss of light in DOWN and the return of light outside it change nothing is the model's (log
entry 4), and so is it that the recovery's expiry changes nothing while its timer has time left (log entry 3). -/
def Obligations.LightRecoveryAndRestart : Prop :=
  (∀ s : State,
     (s.link.state = .aligning ∨ s.link.state = .recovering ∨ s.link.state = .halted →
       exec .lossOfLight s = .next { s with
         link := { s.link with state := .down, goodRun := 0, badRun := 0, window := none, recovery := none } }) ∧
     (s.link.state = .down → exec .lossOfLight s = .next s ∧
       exec .lightReturn s = .next { s with
         link := { s.link with
           state := .aligning, goodRun := 0, badRun := 0, window := some { valid := 0, failures := 0 } } }) ∧
     (s.link.state ≠ .down → exec .lightReturn s = .next s)) ∧
  (∀ s : State, s.link.state ≠ .recovering ∨ s.link.recovery ≠ some 0 → exec .recoveryExpiry s = .next s) ∧
  (∀ s : State, s.link.state = .recovering → s.link.recovery = some 0 → exec .recoveryExpiry s = .next (({ s with
     link := { s.link with state := .halted, goodRun := 0, badRun := 0, window := none, recovery := none } } :
       State).raise .linkHalted)) ∧
  (∀ (s : State) (ref : Half),
     (takable .office s → exec (.restartLink .office ref) s =
       .next (answered .office (refusedAnswer 0x13 ref .wrongMaster) s)) ∧
     (s.link.state = .halted → exec (.restartLink .line ref) s = .next (answered .line (doneAnswer 0x13 ref [1])
       { heard .line s with
         link := { s.link with
           state := .aligning, goodRun := 0, badRun := 0, window := some { valid := 0, failures := 0 } } })) ∧
     (s.link.state ≠ .halted → exec (.restartLink .line ref) s =
       .next (answered .line (doneAnswer 0x13 ref
         [match s.link.state with | .down => 0 | .aligning => 1 | .up => 2 | .recovering => 3 | .halted => 4])
         (heard .line s))))

/-- A control slot by the first case of R133 that applies; outside UP it carries idle fill (R132). The cell sent is the model's
own field (log entry 17). -/
def Obligations.ControlSlotByCase : Prop :=
  ∀ s : State,
    let sends := fun (kind : CellKind) (payload : List Byte) (t : State) =>
      ({ t with uplink := { t.uplink with sent := some (controlCell kind s.link.state payload) } } : State)
    (s.link.state ≠ .up → exec .controlSlot s = .next (sends .idle [] s)) ∧
    (∀ a rest, s.link.state = .up → s.reqs.officeAnswers = a :: rest →
      exec .controlSlot s =
        .next (sends .answer a.encode { s with reqs := { s.reqs with officeAnswers := rest } })) ∧
    (s.link.state = .up → s.reqs.officeAnswers = [] → (∃ e, s.events.noticePending.has e = true) →
      exec .controlSlot s = .next (sends .notice (s.events.flags.bytes ++ s.events.noticePending.bytes)
        { s with events := { s.events with noticePending := .empty } })) ∧
    (s.link.state = .up → s.reqs.officeAnswers = [] → (∀ e, s.events.noticePending.has e = false) →
      exec .controlSlot s = .next (sends .idle [] s))

/-- A return-lane cell (R124, R135, R171, R174): tallied while a window is in progress; in UP handed on by its kind. -/
def Obligations.ReturnCellHandedOn : Prop :=
  ∀ (s u : State) (cell : List Byte) (w : Window),
    (s.link.window = none → exec (.returnCell cell) s = .next s) ∧
    (s.link.window = some w →
      u = ({ s with link := { s.link with window := some { w with valid := w.valid + 1 } } } : State) →
      (headerCheck cell ≠ be16At cell 14 → exec (.returnCell cell) s = .next { s with
        link := { s.link with window := some { w with failures := w.failures + 1 } } }) ∧
      (headerCheck cell = be16At cell 14 →
        (s.link.state ≠ .up ∨ (byteAt cell 0 ≠ 0x11 ∧ byteAt cell 0 ≠ 0x12) →
          exec (.returnCell cell) s = .next u) ∧
        (s.link.state = .up → byteAt cell 0 = 0x11 → 8 ≤ s.reqs.officeAnswers.length →
          exec (.returnCell cell) s = .next (u.raise .officeReqDropped)) ∧
        (s.link.state = .up → byteAt cell 0 = 0x11 → s.reqs.officeAnswers.length < 8 →
          (decodeRequest (returnPayload cell) = none → exec (.returnCell cell) s = .next u) ∧
          (∀ ref port mark, decodeRequest (returnPayload cell) = some (ref, .receipt port mark) →
            exec (.returnCell cell) s = exec (.receipt .office ref port mark) u) ∧
          ∀ ref req, decodeRequest (returnPayload cell) = some (ref, req) → formsAnswer req = true →
            exec (.returnCell cell) s = .next (answered .office
              (answerTo ref (requestKind req) (handle .office req u).2) (handle .office req u).1)) ∧
        (s.link.state = .up → byteAt cell 0 = 0x12 →
          (∀ ref port mark, decodeRequest (returnPayload cell) = some (ref, .receipt port mark) →
            exec (.returnCell cell) s = exec (.receipt .office ref port mark) u) ∧
          ((∀ ref port mark, decodeRequest (returnPayload cell) ≠ some (ref, .receipt port mark)) →
            exec (.returnCell cell) s = .next u))))

/-! ### Requests, locks and answers (chapter 8) -/

/-- What taking a line request does before and after its own rule: the watchdog restarts and silence ends (R38, R40); the
answer is placed, and an unread one it replaces is lost with ANSWER_LOST (R139 step 2). A transfer from chip select to its
release (R138, R139): the answer is fixed at the assertion, leaves the buffer when read whole, and the request the transfer
carries, if any, is then taken and answered. The bytes shifted out are the model's own field (log entry 17). -/
def Obligations.LineRequestsAndTransfers : Prop :=
  (∀ (s : State) (a : Answer),
     heard .line s = { s with shots := { s.shots with
       lineState := .attended, watchdog := watchdogTime s.shots.watchdogPeriod } } ∧
     (s.reqs.lineBuffer = none → (answered .line a s).events = s.events) ∧
     (s.reqs.lineBuffer ≠ none → (answered .line a s).events = s.events.raise (.global .answerLost)) ∧
     (answered .line a s).reqs.lineBuffer = some a ∧
     answered .line a s = { s with
       reqs := { s.reqs with
         lineBuffer := some a, transfer := s.reqs.transfer.map fun t => { t with inBuffer := false } }
       events := (answered .line a s).events }) ∧
  (∀ s : State,
     (s.reqs.transfer = none → ∃ t, exec .chipSelectAssertion s = .next { s with
         reqs := { s.reqs with transfer := some t } } ∧
       t.inBuffer = s.reqs.lineBuffer.isSome ∧ (∀ a, s.reqs.lineBuffer = some a → t.answer = a) ∧
       (s.reqs.lineBuffer = none → t.answer = bareAnswer 0 0 .none)) ∧
     ∀ (mosi : List Byte) (tr : Transfer) (e : State), s.reqs.transfer = some tr →
       e = ({ s with reqs := { s.reqs with
         transfer := none
         shiftedOut := tr.answer.encode.take mosi.length
         lineBuffer := if tr.inBuffer = true ∧ tr.answer.encode.length ≤ mosi.length then none
           else s.reqs.lineBuffer } } : State) →
       (decodeRequest mosi = none → exec (.lineTransfer mosi) s = .next e) ∧
       ∀ ref req, decodeRequest mosi = some (ref, req) →
         exec (.lineTransfer mosi) s = .next (answered .line
           (answerTo ref (requestKind req) (handle .line req (heard .line e)).2)
           (handle .line req (heard .line e)).1))

/-- The office's requests are taken in UP alone, and with 8 answers queued they are dropped unread with OFFICE_REQ_DROPPED
(R127, R135, R140). A request of unknown kind is refused BAD_VALUE with the kind as received, and changes nothing (R142
step 1, R174). RECEIPT, which forms no answer, is in ReceiptClampedAndApplied. That a request row leaves the window's tallies
as they stand is the model's choice (log entry 7). -/
def Obligations.OfficeRequestsAndUnknownKinds : Prop :=
  (∀ (s : State) (c : Instr), answeredSender c = some .office →
     (s.link.state ≠ .up → exec c s = .next s) ∧
     (s.link.state = .up → 8 ≤ s.reqs.officeAnswers.length → exec c s = .next (s.raise .officeReqDropped))) ∧
  (∀ (s : State) (m : Master) (ref : Half) (kind : Byte), takable m s →
     exec (.unknownKindRequest m ref kind) s =
       .next (answered m (refusedAnswer kind ref .badValue) (heard m s)))

/-- READ in the order of R145; it reads the field as it stands when the request is taken and touches no lock. The number each
field carries is written out, by the numbers of R175, in `fieldNumber`, and every read of a field that a request names, READ
or not, is that number. Its codes are the model's reading (log entry 23), and so are its times left in milliseconds (log entry
22), the items it computes (log entry 25) and the layout of a mask record's global field (log entry 9). The held and the
evictable records that STORE shows are those of the catalogue, each counted once (R51, R64). -/
def Obligations.ReadAnswersField : Prop :=
  (∀ (s : State) (m : Master) (ref : Half) (record field : Byte), takable m s →
    (15 ≤ record.toNat → exec (.read m ref record field) s =
      .next (answered m (refusedAnswer 0x01 ref .noSuchRecord) (heard m s))) ∧
    (record.toNat < 15 → (∀ f, resolveField record field ≠ .ok f) → exec (.read m ref record field) s =
      .next (answered m (refusedAnswer 0x01 ref .noSuchField) (heard m s))) ∧
    (∀ f, resolveField record field = .ok f → exec (.read m ref record field) s =
      .next (answered m (doneAnswer 0x01 ref (be32 (readField (heard m s) f))) (heard m s))) ∧
    (record.toNat < 15 → fieldNumber (heard m s) record.toNat field.toNat = none → exec (.read m ref record field) s =
      .next (answered m (refusedAnswer 0x01 ref .noSuchField) (heard m s))) ∧
    ∀ v, fieldNumber (heard m s) record.toNat field.toNat = some v → exec (.read m ref record field) s =
      .next (answered m (doneAnswer 0x01 ref (be32 (wordOf v))) (heard m s))) ∧
  (∀ (s : State) (record field : Byte) (f : FieldRef), resolveField record field = .ok f →
    ∃ v, fieldNumber s record.toNat field.toNat = some v ∧ readField s f = wordOf v) ∧
  ∀ (s : State) (l : List Nat), Table.wf FrameRecord.blank s.store.catalogue → l.Nodup →
    ((∀ n, n ∈ l ↔ (s.record n).state = .held) → fieldNumber s 0x09 0x25 = some l.length) ∧
    ((∀ n, n ∈ l ↔ (s.record n).evictable s.store.evictSent = true) → fieldNumber s 0x09 0x26 = some l.length)

/-- WRITE in the order of R146, with the tests of R147 and R151. The value stored in a mask record's global field, bits FF03H
by storedValue, is the model's reading (log entry 9). -/
def Obligations.WriteTestedInOrder : Prop :=
  ∀ (s : State) (m : Master) (ref : Half) (record field : Byte) (v : Word), takable m s →
    let wrong := (record = 0x0D ∧ m = .office) ∨ (record = 0x0E ∧ m = .line)
    let locked := ∃ (l : Fin 13) (e : Lock), record.toNat = l.val ∧ s.lock l = some e ∧ e.holder ≠ m
    let barred := fun x : Setting => ∃ k : Port, x = .chan (chanOf k) .target ∧ (s.sup k).state = .tripped
    let refused := fun r => exec (.write m ref record field v) s =
      .next (answered m (refusedAnswer 0x02 ref r) (heard m s))
    (15 ≤ record.toNat → refused .noSuchRecord) ∧
    (record.toNat < 15 → (∀ f, resolveField record field ≠ .ok f) → refused .noSuchField) ∧
    (∀ f, resolveField record field = .ok f → wrong → refused .wrongMaster) ∧
    (∀ x, resolveField record field = .ok (.status x) → ¬wrong → refused .readOnly) ∧
    ∀ x, resolveField record field = .ok (.setting x) → ¬wrong →
      (locked → exec (.write m ref record field v) s =
        .next (answered m (bareAnswer 0x02 ref .retry) (heard m s))) ∧
      (¬locked → x.badValue v = true → refused .badValue) ∧
      (¬locked → x.badValue v = false → barred x → refused .portTripped) ∧
      (¬locked → x.badValue v = false → ¬barred x → exec (.write m ref record field v) s =
        .next (answered m (doneAnswer 0x02 ref (be32 (storedValue x v (heard m s))))
          (writeSetting x v (heard m s))))

/-- A write that is taken is read back as stored: a number clamped, an enumeration as written, a set trimmed (R144, R176);
the field alone tells what the value may be. That a mask record's global field keeps bits FF03H is the model's reading (log
entry 9). -/
def Obligations.WriteReadsBackStored : Prop :=
  ∀ (s : State) (x : Setting) (v : Word), x.badValue v = false →
    readSetting (writeSetting x v s) x = storedValue x v s

/-- LOCK_READ in the order of R150; the value is read after the grant or the renewal. -/
def Obligations.LockReadGrantsOrRenews : Prop :=
  ∀ (s : State) (m : Master) (ref : Half) (record field : Byte), takable m s →
    (13 ≤ record.toNat → exec (.lockRead m ref record field) s =
      .next (answered m (refusedAnswer 0x03 ref .noSuchRecord) (heard m s))) ∧
    ∀ l : Fin 13, record.toNat = l.val →
      ((∀ f, resolveField record field ≠ .ok f) → exec (.lockRead m ref record field) s =
        .next (answered m (refusedAnswer 0x03 ref .noSuchField) (heard m s))) ∧
      ∀ f, resolveField record field = .ok f →
        ((∃ e, s.lock l = some e ∧ e.holder ≠ m) → exec (.lockRead m ref record field) s =
          .next (answered m (bareAnswer 0x03 ref .retry) (heard m s))) ∧
        ∀ t, t = (heard m s).setLock l (some { holder := m, remaining := 50000 }) → unbarred m l s →
          exec (.lockRead m ref record field) s =
            .next (answered m (doneAnswer 0x03 ref (be32 (readField t f))) t)

/-- WRITE_UNLOCK in the order of R152. -/
def Obligations.WriteUnlockWritesAndReleases : Prop :=
  ∀ (s : State) (m : Master) (ref : Half) (record field : Byte) (v : Word), takable m s →
    let refused := fun r => exec (.writeUnlock m ref record field v) s =
      .next (answered m (refusedAnswer 0x04 ref r) (heard m s))
    (13 ≤ record.toNat → refused .noSuchRecord) ∧
    ∀ l : Fin 13, record.toNat = l.val →
      let held := ∃ e, s.lock l = some e ∧ e.holder = m
      ((∀ f, resolveField record field ≠ .ok f) → refused .noSuchField) ∧
      (∀ f, resolveField record field = .ok f → ¬held → exec (.writeUnlock m ref record field v) s =
        .next (answered m (bareAnswer 0x04 ref .late) (heard m s))) ∧
      (∀ x, resolveField record field = .ok (.status x) → held → refused .readOnly) ∧
      ∀ x, resolveField record field = .ok (.setting x) → held →
        let barred := ∃ k : Port, x = .chan (chanOf k) .target ∧ (s.sup k).state = .tripped
        (x.badValue v = true → refused .badValue) ∧
        (x.badValue v = false → barred → refused .portTripped) ∧
        (x.badValue v = false → ¬barred → exec (.writeUnlock m ref record field v) s =
          .next (answered m (doneAnswer 0x04 ref (be32 (storedValue x v (heard m s))))
            ((writeSetting x v (heard m s)).setLock l none)))

/-- UNLOCK releases the sender's own lock and never the other master's (R153). A lock's expiry, its timer run out, frees its
entry and does nothing else; a lock renewed meanwhile does not expire at its old time (R154). That the command then, or on a
free entry, changes nothing is the model's (log entries 3 and 4). -/
def Obligations.UnlockAndLockExpiry : Prop :=
  (∀ (s : State) (m : Master) (ref : Half) (record : Byte), takable m s →
     (13 ≤ record.toNat → exec (.unlock m ref record) s =
       .next (answered m (refusedAnswer 0x05 ref .noSuchRecord) (heard m s))) ∧
     ∀ l : Fin 13, record.toNat = l.val →
       ((∃ e, s.lock l = some e ∧ e.holder = m) → exec (.unlock m ref record) s =
         .next (answered m (doneAnswer 0x05 ref []) ((heard m s).setLock l none))) ∧
       ((s.lock l = none ∨ ∃ e, s.lock l = some e ∧ e.holder ≠ m) → exec (.unlock m ref record) s =
         .next (answered m (doneAnswer 0x05 ref []) (heard m s)))) ∧
  (∀ (s : State) (l : Fin 13),
     (∀ e, s.lock l = some e → e.remaining = 0 → ∃ t, exec (.lockExpiry l) s = .next t ∧ t.lock l = none ∧
       (∀ j, j ≠ l → t.lock j = s.lock j) ∧ t = { s with reqs := { s.reqs with locks := t.reqs.locks } }) ∧
     (∀ e, s.lock l = some e → e.remaining ≠ 0 → exec (.lockExpiry l) s = .next s) ∧
     (s.lock l = none → exec (.lockExpiry l) s = .next s))

/-! ### Events, attention and counts (chapter 9) -/

/-- A setting event, for a global flag and for a port's (R158, R162, R163). -/
def Obligations.SettingEventLatches : Prop :=
  ∀ (s t : State) (e : Event),
    t = (match e with | .global g => s.raise g | .port p k => s.raisePort k p) →
    t.events.flags.has e = true ∧ (∀ d, d ≠ e → t.events.flags.has d = s.events.flags.has d) ∧
    (s.events.maskLine.has e = false → t.attnLow = true) ∧
    (s.events.maskOffice.has e = false → t.events.noticePending.has e = true) ∧
    (s.events.maskOffice.has e = true → t.events.noticePending.has e = s.events.noticePending.has e) ∧
    (∀ d, d ≠ e → t.events.noticePending.has d = s.events.noticePending.has d) ∧
    (t.attnLow = true ↔ ∃ d, t.events.flags.has d = true ∧ t.events.maskLine.has d = false) ∧
    t.events.maskLine = s.events.maskLine ∧ t.events.maskOffice = s.events.maskOffice ∧
    t.events.portCounts = s.events.portCounts ∧ t.events.globalCounts = s.events.globalCounts

/-- CLEAR_EVENTS from either master clears the named flags alone, in the layout of R172, and leaves the notice-pending set
(R159). READ_COUNTS by scope, each count in four bytes in the order of its table, then the flags of the scope (R166, R174). -/
def Obligations.ClearEventsAndReadCounts : Prop :=
  (∀ (s : State) (m : Master) (ref : Half) (bytes : List Byte), takable m s → ∃ f : FlagSet,
     exec (.clearEvents m ref bytes) s = .next (answered m (doneAnswer 0x10 ref [])
       { heard m s with events := { s.events with flags := f } }) ∧
     (∀ g : GlobalEvent, f.has (.global g) =
       (s.events.flags.has (.global g) && !(byteAt bytes (g.bit / 8)).getLsbD (g.bit % 8))) ∧
     ∀ (p : PortEvent) (k : Port), f.has (.port p k) =
       (s.events.flags.has (.port p k) && !(byteAt bytes (2 + k.val)).getLsbD p.bit)) ∧
  (∀ (s : State) (m : Master) (ref : Half) (scope : Byte), takable m s →
     (scope = 0 → exec (.readCounts m ref scope) s = .next (answered m
       (doneAnswer 0x12 ref
         (([.cellsRecall, .corrected, .uncorrectable, .evictions, .shotOverflows, .verdictsLate, .linkRecovered,
             .officeAnswersLost] : List GlobalCount).flatMap (fun c => be32 (s.globalCount c)) ++
           s.events.flags.globalBytes)) (heard m s))) ∧
     (∀ k : Port, scope.toNat = k.val + 1 → exec (.readCounts m ref scope) s = .next (answered m
       (doneAnswer 0x12 ref
         (([.framesOpened, .framesCompleted, .framesDamaged, .discardedPolicy, .discardedState, .refused, .oversize,
             .heldThrottle, .queueFull, .promoteFailed, .overrunLines, .stray, .triggersMissed, .cellsLive,
             .freeRun] : List PortCount).flatMap (fun c => be32 (s.portCount k c)) ++
           [s.events.flags.portByte k])) (heard m s))) ∧
     (9 ≤ scope.toNat → exec (.readCounts m ref scope) s =
       .next (answered m (refusedAnswer 0x12 ref .badValue) (heard m s))))

/-- A mask record is written by the master it serves: the field's members change, MASK_LINE decides ATTN from then on, the
notice-pending set stands (R147, R160, R161). That flag g stands at bit (g + 8) mod 16 of the global field, which keeps bits
FF03H, is the model's reading (log entry 9). -/
def Obligations.MaskWriteByOwnMaster : Prop :=
  ∀ (s : State) (m : Master) (ref : Half) (f : Fin 9) (v : Word), takable m s →
    (∀ other, other ≠ m → exec (.maskWrite m ref other f v) s =
      .next (answered m (refusedAnswer 0x02 ref .wrongMaster) (heard m s))) ∧
    ∃ (mask : FlagSet) (u : State),
      exec (.maskWrite m ref m f v) s = .next (answered m
        (doneAnswer 0x02 ref (be32 (if f = 0 then v &&& 0xFF03 else v &&& 0x7F))) u) ∧
      u = (match m with
        | .line => { heard m s with events := { s.events with maskLine := mask } }
        | .office => { heard m s with events := { s.events with maskOffice := mask } }) ∧
      (∀ g : GlobalEvent, mask.has (.global g) =
        if f = 0 then v.getLsbD ((g.bit + 8) % 16) else (maskOf s m).has (.global g)) ∧
      (∀ (p : PortEvent) (k : Port), mask.has (.port p k) =
        if f.val = k.val + 1 then v.getLsbD p.bit else (maskOf s m).has (.port p k)) ∧
      (u.attnLow = true ↔ ∃ d, u.events.flags.has d = true ∧ u.events.maskLine.has d = false)

/-! ### What always holds -/

/-- Right after power-on reset, with the straps log entry 1 chooses, everything that the statements below say always holds,
holds. -/
def Obligations.InvariantsHoldAtReset : Prop :=
  State.reset.budgetsOk ∧ State.reset.supervisorsOk ∧ State.reset.queuesOk ∧ State.reset.locksOk ∧
    State.reset.link.itemsOk ∧ State.reset.tablesOk

/-- Every step keeps the budgets within their bounds, rate 0 at target 0, and a TRIPPED port's budget at 0 (R76, R88). -/
def Obligations.StepsKeepBudgets : Prop :=
  ∀ s t : State, s.budgetsOk → step s = .next t → t.budgetsOk

/-- Every step keeps the supervisors' items as R65 says. -/
def Obligations.StepsKeepSupervisors : Prop :=
  ∀ s t : State, s.supervisorsOk → step s = .next t → t.supervisorsOk

/-- Every step keeps every list of the device within its bound (R1, R20, R97, R111, R134), the locks and queued answers with
masters in reach (R134, R149), and the link's items as R122 says. -/
def Obligations.StepsKeepQueuesLocksAndLink : Prop :=
  (∀ s t : State, s.queuesOk → step s = .next t → t.queuesOk) ∧
  (∀ s t : State, s.locksOk → step s = .next t → t.locksOk) ∧
  (∀ s t : State, s.link.itemsOk → step s = .next t → t.link.itemsOk)

/-- Every step keeps frame memory and the sparse tables in their canonical forms. -/
def Obligations.StepsKeepTables : Prop :=
  ∀ s t : State, s.tablesOk → step s = .next t → t.tablesOk
end

