-- ==== Sys2Proof/Laws/State.lean ====
section
/-! SUPPORT. One lemma per field per update of the state: what each update leaves as it stands, and what it writes. -/

namespace Sys2Proof.Machine

variable (s : State)

/-! ### State.modCam -/

@[simp] theorem State.modCam_sups (k : Port) (f : CameraPort → CameraPort) : (s.modCam k f).sups = s.sups := rfl
@[simp] theorem State.modCam_dark (k : Port) (f : CameraPort → CameraPort) : (s.modCam k f).dark = s.dark := rfl
@[simp] theorem State.modCam_shots (k : Port) (f : CameraPort → CameraPort) : (s.modCam k f).shots = s.shots := rfl
@[simp] theorem State.modCam_store (k : Port) (f : CameraPort → CameraPort) : (s.modCam k f).store = s.store := rfl
@[simp] theorem State.modCam_uplink (k : Port) (f : CameraPort → CameraPort) : (s.modCam k f).uplink = s.uplink := rfl
@[simp] theorem State.modCam_recalls (k : Port) (f : CameraPort → CameraPort) : (s.modCam k f).recalls = s.recalls := rfl
@[simp] theorem State.modCam_link (k : Port) (f : CameraPort → CameraPort) : (s.modCam k f).link = s.link := rfl
@[simp] theorem State.modCam_reqs (k : Port) (f : CameraPort → CameraPort) : (s.modCam k f).reqs = s.reqs := rfl
@[simp] theorem State.modCam_events (k : Port) (f : CameraPort → CameraPort) : (s.modCam k f).events = s.events := rfl
@[simp] theorem State.modCam_ctrg (k : Port) (f : CameraPort → CameraPort) : (s.modCam k f).ctrg = s.ctrg := rfl
@[simp] theorem State.modCam_draws (k : Port) (f : CameraPort → CameraPort) : (s.modCam k f).draws = s.draws := rfl
@[simp] theorem State.modCam_pending (k : Port) (f : CameraPort → CameraPort) : (s.modCam k f).pending = s.pending := rfl

/-! ### State.modSup -/

@[simp] theorem State.modSup_cams (k : Port) (f : Supervisor → Supervisor) : (s.modSup k f).cams = s.cams := rfl
@[simp] theorem State.modSup_dark (k : Port) (f : Supervisor → Supervisor) : (s.modSup k f).dark = s.dark := rfl
@[simp] theorem State.modSup_shots (k : Port) (f : Supervisor → Supervisor) : (s.modSup k f).shots = s.shots := rfl
@[simp] theorem State.modSup_store (k : Port) (f : Supervisor → Supervisor) : (s.modSup k f).store = s.store := rfl
@[simp] theorem State.modSup_uplink (k : Port) (f : Supervisor → Supervisor) : (s.modSup k f).uplink = s.uplink := rfl
@[simp] theorem State.modSup_recalls (k : Port) (f : Supervisor → Supervisor) : (s.modSup k f).recalls = s.recalls := rfl
@[simp] theorem State.modSup_link (k : Port) (f : Supervisor → Supervisor) : (s.modSup k f).link = s.link := rfl
@[simp] theorem State.modSup_reqs (k : Port) (f : Supervisor → Supervisor) : (s.modSup k f).reqs = s.reqs := rfl
@[simp] theorem State.modSup_events (k : Port) (f : Supervisor → Supervisor) : (s.modSup k f).events = s.events := rfl
@[simp] theorem State.modSup_ctrg (k : Port) (f : Supervisor → Supervisor) : (s.modSup k f).ctrg = s.ctrg := rfl
@[simp] theorem State.modSup_draws (k : Port) (f : Supervisor → Supervisor) : (s.modSup k f).draws = s.draws := rfl
@[simp] theorem State.modSup_pending (k : Port) (f : Supervisor → Supervisor) : (s.modSup k f).pending = s.pending := rfl

/-! ### State.modChan -/

@[simp] theorem State.modChan_cams (c : Chan) (f : Channel → Channel) : (s.modChan c f).cams = s.cams := rfl
@[simp] theorem State.modChan_sups (c : Chan) (f : Channel → Channel) : (s.modChan c f).sups = s.sups := rfl
@[simp] theorem State.modChan_dark (c : Chan) (f : Channel → Channel) : (s.modChan c f).dark = s.dark := rfl
@[simp] theorem State.modChan_shots (c : Chan) (f : Channel → Channel) : (s.modChan c f).shots = s.shots := rfl
@[simp] theorem State.modChan_store (c : Chan) (f : Channel → Channel) : (s.modChan c f).store = s.store := rfl
@[simp] theorem State.modChan_recalls (c : Chan) (f : Channel → Channel) : (s.modChan c f).recalls = s.recalls := rfl
@[simp] theorem State.modChan_link (c : Chan) (f : Channel → Channel) : (s.modChan c f).link = s.link := rfl
@[simp] theorem State.modChan_reqs (c : Chan) (f : Channel → Channel) : (s.modChan c f).reqs = s.reqs := rfl
@[simp] theorem State.modChan_events (c : Chan) (f : Channel → Channel) : (s.modChan c f).events = s.events := rfl
@[simp] theorem State.modChan_ctrg (c : Chan) (f : Channel → Channel) : (s.modChan c f).ctrg = s.ctrg := rfl
@[simp] theorem State.modChan_draws (c : Chan) (f : Channel → Channel) : (s.modChan c f).draws = s.draws := rfl
@[simp] theorem State.modChan_pending (c : Chan) (f : Channel → Channel) : (s.modChan c f).pending = s.pending := rfl
@[simp] theorem State.modChan_uplink_live (c : Chan) (f : Channel → Channel) : (s.modChan c f).uplink.live = s.uplink.live := rfl
@[simp] theorem State.modChan_uplink_lastCredit (c : Chan) (f : Channel → Channel) : (s.modChan c f).uplink.lastCredit = s.uplink.lastCredit := rfl
@[simp] theorem State.modChan_uplink_lastSurplus (c : Chan) (f : Channel → Channel) : (s.modChan c f).uplink.lastSurplus = s.uplink.lastSurplus := rfl
@[simp] theorem State.modChan_uplink_sent (c : Chan) (f : Channel → Channel) : (s.modChan c f).uplink.sent = s.uplink.sent := rfl

/-! ### State.setLive -/

@[simp] theorem State.setLive_cams (k : Port) (q : List Nat) : (s.setLive k q).cams = s.cams := rfl
@[simp] theorem State.setLive_sups (k : Port) (q : List Nat) : (s.setLive k q).sups = s.sups := rfl
@[simp] theorem State.setLive_dark (k : Port) (q : List Nat) : (s.setLive k q).dark = s.dark := rfl
@[simp] theorem State.setLive_shots (k : Port) (q : List Nat) : (s.setLive k q).shots = s.shots := rfl
@[simp] theorem State.setLive_store (k : Port) (q : List Nat) : (s.setLive k q).store = s.store := rfl
@[simp] theorem State.setLive_recalls (k : Port) (q : List Nat) : (s.setLive k q).recalls = s.recalls := rfl
@[simp] theorem State.setLive_link (k : Port) (q : List Nat) : (s.setLive k q).link = s.link := rfl
@[simp] theorem State.setLive_reqs (k : Port) (q : List Nat) : (s.setLive k q).reqs = s.reqs := rfl
@[simp] theorem State.setLive_events (k : Port) (q : List Nat) : (s.setLive k q).events = s.events := rfl
@[simp] theorem State.setLive_ctrg (k : Port) (q : List Nat) : (s.setLive k q).ctrg = s.ctrg := rfl
@[simp] theorem State.setLive_draws (k : Port) (q : List Nat) : (s.setLive k q).draws = s.draws := rfl
@[simp] theorem State.setLive_pending (k : Port) (q : List Nat) : (s.setLive k q).pending = s.pending := rfl
@[simp] theorem State.setLive_uplink_chans (k : Port) (q : List Nat) : (s.setLive k q).uplink.chans = s.uplink.chans := rfl
@[simp] theorem State.setLive_uplink_lastCredit (k : Port) (q : List Nat) : (s.setLive k q).uplink.lastCredit = s.uplink.lastCredit := rfl
@[simp] theorem State.setLive_uplink_lastSurplus (k : Port) (q : List Nat) : (s.setLive k q).uplink.lastSurplus = s.uplink.lastSurplus := rfl
@[simp] theorem State.setLive_uplink_sent (k : Port) (q : List Nat) : (s.setLive k q).uplink.sent = s.uplink.sent := rfl

/-! ### State.setSlot -/

@[simp] theorem State.setSlot_cams (k : Port) (t : Option TriggerSlot) : (s.setSlot k t).cams = s.cams := rfl
@[simp] theorem State.setSlot_sups (k : Port) (t : Option TriggerSlot) : (s.setSlot k t).sups = s.sups := rfl
@[simp] theorem State.setSlot_dark (k : Port) (t : Option TriggerSlot) : (s.setSlot k t).dark = s.dark := rfl
@[simp] theorem State.setSlot_store (k : Port) (t : Option TriggerSlot) : (s.setSlot k t).store = s.store := rfl
@[simp] theorem State.setSlot_uplink (k : Port) (t : Option TriggerSlot) : (s.setSlot k t).uplink = s.uplink := rfl
@[simp] theorem State.setSlot_recalls (k : Port) (t : Option TriggerSlot) : (s.setSlot k t).recalls = s.recalls := rfl
@[simp] theorem State.setSlot_link (k : Port) (t : Option TriggerSlot) : (s.setSlot k t).link = s.link := rfl
@[simp] theorem State.setSlot_reqs (k : Port) (t : Option TriggerSlot) : (s.setSlot k t).reqs = s.reqs := rfl
@[simp] theorem State.setSlot_events (k : Port) (t : Option TriggerSlot) : (s.setSlot k t).events = s.events := rfl
@[simp] theorem State.setSlot_ctrg (k : Port) (t : Option TriggerSlot) : (s.setSlot k t).ctrg = s.ctrg := rfl
@[simp] theorem State.setSlot_draws (k : Port) (t : Option TriggerSlot) : (s.setSlot k t).draws = s.draws := rfl
@[simp] theorem State.setSlot_pending (k : Port) (t : Option TriggerSlot) : (s.setSlot k t).pending = s.pending := rfl
@[simp] theorem State.setSlot_shots_shots (k : Port) (t : Option TriggerSlot) : (s.setSlot k t).shots.shots = s.shots.shots := rfl
@[simp] theorem State.setSlot_shots_next (k : Port) (t : Option TriggerSlot) : (s.setSlot k t).shots.next = s.shots.next := rfl
@[simp] theorem State.setSlot_shots_window (k : Port) (t : Option TriggerSlot) : (s.setSlot k t).shots.window = s.shots.window := rfl
@[simp] theorem State.setSlot_shots_watchdog (k : Port) (t : Option TriggerSlot) : (s.setSlot k t).shots.watchdog = s.shots.watchdog := rfl
@[simp] theorem State.setSlot_shots_lineState (k : Port) (t : Option TriggerSlot) : (s.setSlot k t).shots.lineState = s.shots.lineState := rfl
@[simp] theorem State.setSlot_shots_deadline (k : Port) (t : Option TriggerSlot) : (s.setSlot k t).shots.deadline = s.shots.deadline := rfl
@[simp] theorem State.setSlot_shots_defaultVerdict (k : Port) (t : Option TriggerSlot) : (s.setSlot k t).shots.defaultVerdict = s.shots.defaultVerdict := rfl
@[simp] theorem State.setSlot_shots_pinMasks (k : Port) (t : Option TriggerSlot) : (s.setSlot k t).shots.pinMasks = s.shots.pinMasks := rfl
@[simp] theorem State.setSlot_shots_triggerDelay (k : Port) (t : Option TriggerSlot) : (s.setSlot k t).shots.triggerDelay = s.shots.triggerDelay := rfl
@[simp] theorem State.setSlot_shots_watchdogPeriod (k : Port) (t : Option TriggerSlot) : (s.setSlot k t).shots.watchdogPeriod = s.shots.watchdogPeriod := rfl

/-! ### State.setLock -/

@[simp] theorem State.setLock_cams (l : Fin 13) (e : Option Lock) : (s.setLock l e).cams = s.cams := rfl
@[simp] theorem State.setLock_sups (l : Fin 13) (e : Option Lock) : (s.setLock l e).sups = s.sups := rfl
@[simp] theorem State.setLock_dark (l : Fin 13) (e : Option Lock) : (s.setLock l e).dark = s.dark := rfl
@[simp] theorem State.setLock_shots (l : Fin 13) (e : Option Lock) : (s.setLock l e).shots = s.shots := rfl
@[simp] theorem State.setLock_store (l : Fin 13) (e : Option Lock) : (s.setLock l e).store = s.store := rfl
@[simp] theorem State.setLock_uplink (l : Fin 13) (e : Option Lock) : (s.setLock l e).uplink = s.uplink := rfl
@[simp] theorem State.setLock_recalls (l : Fin 13) (e : Option Lock) : (s.setLock l e).recalls = s.recalls := rfl
@[simp] theorem State.setLock_link (l : Fin 13) (e : Option Lock) : (s.setLock l e).link = s.link := rfl
@[simp] theorem State.setLock_events (l : Fin 13) (e : Option Lock) : (s.setLock l e).events = s.events := rfl
@[simp] theorem State.setLock_ctrg (l : Fin 13) (e : Option Lock) : (s.setLock l e).ctrg = s.ctrg := rfl
@[simp] theorem State.setLock_draws (l : Fin 13) (e : Option Lock) : (s.setLock l e).draws = s.draws := rfl
@[simp] theorem State.setLock_pending (l : Fin 13) (e : Option Lock) : (s.setLock l e).pending = s.pending := rfl
@[simp] theorem State.setLock_reqs_lineBuffer (l : Fin 13) (e : Option Lock) : (s.setLock l e).reqs.lineBuffer = s.reqs.lineBuffer := rfl
@[simp] theorem State.setLock_reqs_transfer (l : Fin 13) (e : Option Lock) : (s.setLock l e).reqs.transfer = s.reqs.transfer := rfl
@[simp] theorem State.setLock_reqs_shiftedOut (l : Fin 13) (e : Option Lock) : (s.setLock l e).reqs.shiftedOut = s.reqs.shiftedOut := rfl
@[simp] theorem State.setLock_reqs_officeAnswers (l : Fin 13) (e : Option Lock) : (s.setLock l e).reqs.officeAnswers = s.reqs.officeAnswers := rfl

/-! ### State.setRecord -/

@[simp] theorem State.setRecord_cams (n : Nat) (r : FrameRecord) : (s.setRecord n r).cams = s.cams := rfl
@[simp] theorem State.setRecord_sups (n : Nat) (r : FrameRecord) : (s.setRecord n r).sups = s.sups := rfl
@[simp] theorem State.setRecord_dark (n : Nat) (r : FrameRecord) : (s.setRecord n r).dark = s.dark := rfl
@[simp] theorem State.setRecord_shots (n : Nat) (r : FrameRecord) : (s.setRecord n r).shots = s.shots := rfl
@[simp] theorem State.setRecord_uplink (n : Nat) (r : FrameRecord) : (s.setRecord n r).uplink = s.uplink := rfl
@[simp] theorem State.setRecord_recalls (n : Nat) (r : FrameRecord) : (s.setRecord n r).recalls = s.recalls := rfl
@[simp] theorem State.setRecord_link (n : Nat) (r : FrameRecord) : (s.setRecord n r).link = s.link := rfl
@[simp] theorem State.setRecord_reqs (n : Nat) (r : FrameRecord) : (s.setRecord n r).reqs = s.reqs := rfl
@[simp] theorem State.setRecord_events (n : Nat) (r : FrameRecord) : (s.setRecord n r).events = s.events := rfl
@[simp] theorem State.setRecord_ctrg (n : Nat) (r : FrameRecord) : (s.setRecord n r).ctrg = s.ctrg := rfl
@[simp] theorem State.setRecord_draws (n : Nat) (r : FrameRecord) : (s.setRecord n r).draws = s.draws := rfl
@[simp] theorem State.setRecord_pending (n : Nat) (r : FrameRecord) : (s.setRecord n r).pending = s.pending := rfl
@[simp] theorem State.setRecord_store_phase (n : Nat) (r : FrameRecord) : (s.setRecord n r).store.phase = s.store.phase := rfl
@[simp] theorem State.setRecord_store_memSize (n : Nat) (r : FrameRecord) : (s.setRecord n r).store.memSize = s.store.memSize := rfl
@[simp] theorem State.setRecord_store_evictSent (n : Nat) (r : FrameRecord) : (s.setRecord n r).store.evictSent = s.store.evictSent := rfl
@[simp] theorem State.setRecord_store_freePages (n : Nat) (r : FrameRecord) : (s.setRecord n r).store.freePages = s.store.freePages := rfl
@[simp] theorem State.setRecord_store_freeRecords (n : Nat) (r : FrameRecord) : (s.setRecord n r).store.freeRecords = s.store.freeRecords := rfl
@[simp] theorem State.setRecord_store_ageList (n : Nat) (r : FrameRecord) : (s.setRecord n r).store.ageList = s.store.ageList := rfl
@[simp] theorem State.setRecord_store_lookup (n : Nat) (r : FrameRecord) : (s.setRecord n r).store.lookup = s.store.lookup := rfl
@[simp] theorem State.setRecord_store_mem (n : Nat) (r : FrameRecord) : (s.setRecord n r).store.mem = s.store.mem := rfl
@[simp] theorem State.setRecord_store_health (n : Nat) (r : FrameRecord) : (s.setRecord n r).store.health = s.store.health := rfl

/-! ### State.modRecord -/

@[simp] theorem State.modRecord_cams (n : Nat) (f : FrameRecord → FrameRecord) : (s.modRecord n f).cams = s.cams := rfl
@[simp] theorem State.modRecord_sups (n : Nat) (f : FrameRecord → FrameRecord) : (s.modRecord n f).sups = s.sups := rfl
@[simp] theorem State.modRecord_dark (n : Nat) (f : FrameRecord → FrameRecord) : (s.modRecord n f).dark = s.dark := rfl
@[simp] theorem State.modRecord_shots (n : Nat) (f : FrameRecord → FrameRecord) : (s.modRecord n f).shots = s.shots := rfl
@[simp] theorem State.modRecord_uplink (n : Nat) (f : FrameRecord → FrameRecord) : (s.modRecord n f).uplink = s.uplink := rfl
@[simp] theorem State.modRecord_recalls (n : Nat) (f : FrameRecord → FrameRecord) : (s.modRecord n f).recalls = s.recalls := rfl
@[simp] theorem State.modRecord_link (n : Nat) (f : FrameRecord → FrameRecord) : (s.modRecord n f).link = s.link := rfl
@[simp] theorem State.modRecord_reqs (n : Nat) (f : FrameRecord → FrameRecord) : (s.modRecord n f).reqs = s.reqs := rfl
@[simp] theorem State.modRecord_events (n : Nat) (f : FrameRecord → FrameRecord) : (s.modRecord n f).events = s.events := rfl
@[simp] theorem State.modRecord_ctrg (n : Nat) (f : FrameRecord → FrameRecord) : (s.modRecord n f).ctrg = s.ctrg := rfl
@[simp] theorem State.modRecord_draws (n : Nat) (f : FrameRecord → FrameRecord) : (s.modRecord n f).draws = s.draws := rfl
@[simp] theorem State.modRecord_pending (n : Nat) (f : FrameRecord → FrameRecord) : (s.modRecord n f).pending = s.pending := rfl
@[simp] theorem State.modRecord_store_phase (n : Nat) (f : FrameRecord → FrameRecord) : (s.modRecord n f).store.phase = s.store.phase := rfl
@[simp] theorem State.modRecord_store_memSize (n : Nat) (f : FrameRecord → FrameRecord) : (s.modRecord n f).store.memSize = s.store.memSize := rfl
@[simp] theorem State.modRecord_store_evictSent (n : Nat) (f : FrameRecord → FrameRecord) : (s.modRecord n f).store.evictSent = s.store.evictSent := rfl
@[simp] theorem State.modRecord_store_freePages (n : Nat) (f : FrameRecord → FrameRecord) : (s.modRecord n f).store.freePages = s.store.freePages := rfl
@[simp] theorem State.modRecord_store_freeRecords (n : Nat) (f : FrameRecord → FrameRecord) : (s.modRecord n f).store.freeRecords = s.store.freeRecords := rfl
@[simp] theorem State.modRecord_store_ageList (n : Nat) (f : FrameRecord → FrameRecord) : (s.modRecord n f).store.ageList = s.store.ageList := rfl
@[simp] theorem State.modRecord_store_lookup (n : Nat) (f : FrameRecord → FrameRecord) : (s.modRecord n f).store.lookup = s.store.lookup := rfl
@[simp] theorem State.modRecord_store_mem (n : Nat) (f : FrameRecord → FrameRecord) : (s.modRecord n f).store.mem = s.store.mem := rfl
@[simp] theorem State.modRecord_store_health (n : Nat) (f : FrameRecord → FrameRecord) : (s.modRecord n f).store.health = s.store.health := rfl

/-! ### State.setLookup -/

@[simp] theorem State.setLookup_cams (k : Port) (n : Half) (e : Option Nat) : (s.setLookup k n e).cams = s.cams := rfl
@[simp] theorem State.setLookup_sups (k : Port) (n : Half) (e : Option Nat) : (s.setLookup k n e).sups = s.sups := rfl
@[simp] theorem State.setLookup_dark (k : Port) (n : Half) (e : Option Nat) : (s.setLookup k n e).dark = s.dark := rfl
@[simp] theorem State.setLookup_shots (k : Port) (n : Half) (e : Option Nat) : (s.setLookup k n e).shots = s.shots := rfl
@[simp] theorem State.setLookup_uplink (k : Port) (n : Half) (e : Option Nat) : (s.setLookup k n e).uplink = s.uplink := rfl
@[simp] theorem State.setLookup_recalls (k : Port) (n : Half) (e : Option Nat) : (s.setLookup k n e).recalls = s.recalls := rfl
@[simp] theorem State.setLookup_link (k : Port) (n : Half) (e : Option Nat) : (s.setLookup k n e).link = s.link := rfl
@[simp] theorem State.setLookup_reqs (k : Port) (n : Half) (e : Option Nat) : (s.setLookup k n e).reqs = s.reqs := rfl
@[simp] theorem State.setLookup_events (k : Port) (n : Half) (e : Option Nat) : (s.setLookup k n e).events = s.events := rfl
@[simp] theorem State.setLookup_ctrg (k : Port) (n : Half) (e : Option Nat) : (s.setLookup k n e).ctrg = s.ctrg := rfl
@[simp] theorem State.setLookup_draws (k : Port) (n : Half) (e : Option Nat) : (s.setLookup k n e).draws = s.draws := rfl
@[simp] theorem State.setLookup_pending (k : Port) (n : Half) (e : Option Nat) : (s.setLookup k n e).pending = s.pending := rfl
@[simp] theorem State.setLookup_store_phase (k : Port) (n : Half) (e : Option Nat) : (s.setLookup k n e).store.phase = s.store.phase := rfl
@[simp] theorem State.setLookup_store_memSize (k : Port) (n : Half) (e : Option Nat) : (s.setLookup k n e).store.memSize = s.store.memSize := rfl
@[simp] theorem State.setLookup_store_evictSent (k : Port) (n : Half) (e : Option Nat) : (s.setLookup k n e).store.evictSent = s.store.evictSent := rfl
@[simp] theorem State.setLookup_store_freePages (k : Port) (n : Half) (e : Option Nat) : (s.setLookup k n e).store.freePages = s.store.freePages := rfl
@[simp] theorem State.setLookup_store_freeRecords (k : Port) (n : Half) (e : Option Nat) : (s.setLookup k n e).store.freeRecords = s.store.freeRecords := rfl
@[simp] theorem State.setLookup_store_ageList (k : Port) (n : Half) (e : Option Nat) : (s.setLookup k n e).store.ageList = s.store.ageList := rfl
@[simp] theorem State.setLookup_store_catalogue (k : Port) (n : Half) (e : Option Nat) : (s.setLookup k n e).store.catalogue = s.store.catalogue := rfl
@[simp] theorem State.setLookup_store_mem (k : Port) (n : Half) (e : Option Nat) : (s.setLookup k n e).store.mem = s.store.mem := rfl
@[simp] theorem State.setLookup_store_health (k : Port) (n : Half) (e : Option Nat) : (s.setLookup k n e).store.health = s.store.health := rfl

/-! ### State.raise -/

@[simp] theorem State.raise_cams (g : GlobalEvent) : (s.raise g).cams = s.cams := rfl
@[simp] theorem State.raise_sups (g : GlobalEvent) : (s.raise g).sups = s.sups := rfl
@[simp] theorem State.raise_dark (g : GlobalEvent) : (s.raise g).dark = s.dark := rfl
@[simp] theorem State.raise_shots (g : GlobalEvent) : (s.raise g).shots = s.shots := rfl
@[simp] theorem State.raise_store (g : GlobalEvent) : (s.raise g).store = s.store := rfl
@[simp] theorem State.raise_uplink (g : GlobalEvent) : (s.raise g).uplink = s.uplink := rfl
@[simp] theorem State.raise_recalls (g : GlobalEvent) : (s.raise g).recalls = s.recalls := rfl
@[simp] theorem State.raise_link (g : GlobalEvent) : (s.raise g).link = s.link := rfl
@[simp] theorem State.raise_reqs (g : GlobalEvent) : (s.raise g).reqs = s.reqs := rfl
@[simp] theorem State.raise_ctrg (g : GlobalEvent) : (s.raise g).ctrg = s.ctrg := rfl
@[simp] theorem State.raise_draws (g : GlobalEvent) : (s.raise g).draws = s.draws := rfl
@[simp] theorem State.raise_pending (g : GlobalEvent) : (s.raise g).pending = s.pending := rfl
@[simp] theorem State.raise_events_maskLine (g : GlobalEvent) : (s.raise g).events.maskLine = s.events.maskLine := rfl
@[simp] theorem State.raise_events_maskOffice (g : GlobalEvent) : (s.raise g).events.maskOffice = s.events.maskOffice := rfl
@[simp] theorem State.raise_events_portCounts (g : GlobalEvent) : (s.raise g).events.portCounts = s.events.portCounts := rfl
@[simp] theorem State.raise_events_globalCounts (g : GlobalEvent) : (s.raise g).events.globalCounts = s.events.globalCounts := rfl

/-! ### State.raisePort -/

@[simp] theorem State.raisePort_cams (k : Port) (p : PortEvent) : (s.raisePort k p).cams = s.cams := rfl
@[simp] theorem State.raisePort_sups (k : Port) (p : PortEvent) : (s.raisePort k p).sups = s.sups := rfl
@[simp] theorem State.raisePort_dark (k : Port) (p : PortEvent) : (s.raisePort k p).dark = s.dark := rfl
@[simp] theorem State.raisePort_shots (k : Port) (p : PortEvent) : (s.raisePort k p).shots = s.shots := rfl
@[simp] theorem State.raisePort_store (k : Port) (p : PortEvent) : (s.raisePort k p).store = s.store := rfl
@[simp] theorem State.raisePort_uplink (k : Port) (p : PortEvent) : (s.raisePort k p).uplink = s.uplink := rfl
@[simp] theorem State.raisePort_recalls (k : Port) (p : PortEvent) : (s.raisePort k p).recalls = s.recalls := rfl
@[simp] theorem State.raisePort_link (k : Port) (p : PortEvent) : (s.raisePort k p).link = s.link := rfl
@[simp] theorem State.raisePort_reqs (k : Port) (p : PortEvent) : (s.raisePort k p).reqs = s.reqs := rfl
@[simp] theorem State.raisePort_ctrg (k : Port) (p : PortEvent) : (s.raisePort k p).ctrg = s.ctrg := rfl
@[simp] theorem State.raisePort_draws (k : Port) (p : PortEvent) : (s.raisePort k p).draws = s.draws := rfl
@[simp] theorem State.raisePort_pending (k : Port) (p : PortEvent) : (s.raisePort k p).pending = s.pending := rfl
@[simp] theorem State.raisePort_events_maskLine (k : Port) (p : PortEvent) : (s.raisePort k p).events.maskLine = s.events.maskLine := rfl
@[simp] theorem State.raisePort_events_maskOffice (k : Port) (p : PortEvent) : (s.raisePort k p).events.maskOffice = s.events.maskOffice := rfl
@[simp] theorem State.raisePort_events_portCounts (k : Port) (p : PortEvent) : (s.raisePort k p).events.portCounts = s.events.portCounts := rfl
@[simp] theorem State.raisePort_events_globalCounts (k : Port) (p : PortEvent) : (s.raisePort k p).events.globalCounts = s.events.globalCounts := rfl

/-! ### State.count -/

@[simp] theorem State.count_cams (k : Port) (c : PortCount) : (s.count k c).cams = s.cams := rfl
@[simp] theorem State.count_sups (k : Port) (c : PortCount) : (s.count k c).sups = s.sups := rfl
@[simp] theorem State.count_dark (k : Port) (c : PortCount) : (s.count k c).dark = s.dark := rfl
@[simp] theorem State.count_shots (k : Port) (c : PortCount) : (s.count k c).shots = s.shots := rfl
@[simp] theorem State.count_store (k : Port) (c : PortCount) : (s.count k c).store = s.store := rfl
@[simp] theorem State.count_uplink (k : Port) (c : PortCount) : (s.count k c).uplink = s.uplink := rfl
@[simp] theorem State.count_recalls (k : Port) (c : PortCount) : (s.count k c).recalls = s.recalls := rfl
@[simp] theorem State.count_link (k : Port) (c : PortCount) : (s.count k c).link = s.link := rfl
@[simp] theorem State.count_reqs (k : Port) (c : PortCount) : (s.count k c).reqs = s.reqs := rfl
@[simp] theorem State.count_ctrg (k : Port) (c : PortCount) : (s.count k c).ctrg = s.ctrg := rfl
@[simp] theorem State.count_draws (k : Port) (c : PortCount) : (s.count k c).draws = s.draws := rfl
@[simp] theorem State.count_pending (k : Port) (c : PortCount) : (s.count k c).pending = s.pending := rfl
@[simp] theorem State.count_events_flags (k : Port) (c : PortCount) : (s.count k c).events.flags = s.events.flags := rfl
@[simp] theorem State.count_events_maskLine (k : Port) (c : PortCount) : (s.count k c).events.maskLine = s.events.maskLine := rfl
@[simp] theorem State.count_events_maskOffice (k : Port) (c : PortCount) : (s.count k c).events.maskOffice = s.events.maskOffice := rfl
@[simp] theorem State.count_events_noticePending (k : Port) (c : PortCount) : (s.count k c).events.noticePending = s.events.noticePending := rfl
@[simp] theorem State.count_events_globalCounts (k : Port) (c : PortCount) : (s.count k c).events.globalCounts = s.events.globalCounts := rfl

/-! ### State.countGlobal -/

@[simp] theorem State.countGlobal_cams (c : GlobalCount) (n : Nat) : (s.countGlobal c n).cams = s.cams := rfl
@[simp] theorem State.countGlobal_sups (c : GlobalCount) (n : Nat) : (s.countGlobal c n).sups = s.sups := rfl
@[simp] theorem State.countGlobal_dark (c : GlobalCount) (n : Nat) : (s.countGlobal c n).dark = s.dark := rfl
@[simp] theorem State.countGlobal_shots (c : GlobalCount) (n : Nat) : (s.countGlobal c n).shots = s.shots := rfl
@[simp] theorem State.countGlobal_store (c : GlobalCount) (n : Nat) : (s.countGlobal c n).store = s.store := rfl
@[simp] theorem State.countGlobal_uplink (c : GlobalCount) (n : Nat) : (s.countGlobal c n).uplink = s.uplink := rfl
@[simp] theorem State.countGlobal_recalls (c : GlobalCount) (n : Nat) : (s.countGlobal c n).recalls = s.recalls := rfl
@[simp] theorem State.countGlobal_link (c : GlobalCount) (n : Nat) : (s.countGlobal c n).link = s.link := rfl
@[simp] theorem State.countGlobal_reqs (c : GlobalCount) (n : Nat) : (s.countGlobal c n).reqs = s.reqs := rfl
@[simp] theorem State.countGlobal_ctrg (c : GlobalCount) (n : Nat) : (s.countGlobal c n).ctrg = s.ctrg := rfl
@[simp] theorem State.countGlobal_draws (c : GlobalCount) (n : Nat) : (s.countGlobal c n).draws = s.draws := rfl
@[simp] theorem State.countGlobal_pending (c : GlobalCount) (n : Nat) : (s.countGlobal c n).pending = s.pending := rfl
@[simp] theorem State.countGlobal_events_flags (c : GlobalCount) (n : Nat) : (s.countGlobal c n).events.flags = s.events.flags := rfl
@[simp] theorem State.countGlobal_events_maskLine (c : GlobalCount) (n : Nat) : (s.countGlobal c n).events.maskLine = s.events.maskLine := rfl
@[simp] theorem State.countGlobal_events_maskOffice (c : GlobalCount) (n : Nat) : (s.countGlobal c n).events.maskOffice = s.events.maskOffice := rfl
@[simp] theorem State.countGlobal_events_noticePending (c : GlobalCount) (n : Nat) : (s.countGlobal c n).events.noticePending = s.events.noticePending := rfl
@[simp] theorem State.countGlobal_events_portCounts (c : GlobalCount) (n : Nat) : (s.countGlobal c n).events.portCounts = s.events.portCounts := rfl

/-! ### State.modLink -/

@[simp] theorem State.modLink_cams (f : Link → Link) : (s.modLink f).cams = s.cams := rfl
@[simp] theorem State.modLink_sups (f : Link → Link) : (s.modLink f).sups = s.sups := rfl
@[simp] theorem State.modLink_dark (f : Link → Link) : (s.modLink f).dark = s.dark := rfl
@[simp] theorem State.modLink_shots (f : Link → Link) : (s.modLink f).shots = s.shots := rfl
@[simp] theorem State.modLink_store (f : Link → Link) : (s.modLink f).store = s.store := rfl
@[simp] theorem State.modLink_uplink (f : Link → Link) : (s.modLink f).uplink = s.uplink := rfl
@[simp] theorem State.modLink_recalls (f : Link → Link) : (s.modLink f).recalls = s.recalls := rfl
@[simp] theorem State.modLink_reqs (f : Link → Link) : (s.modLink f).reqs = s.reqs := rfl
@[simp] theorem State.modLink_events (f : Link → Link) : (s.modLink f).events = s.events := rfl
@[simp] theorem State.modLink_ctrg (f : Link → Link) : (s.modLink f).ctrg = s.ctrg := rfl
@[simp] theorem State.modLink_draws (f : Link → Link) : (s.modLink f).draws = s.draws := rfl
@[simp] theorem State.modLink_pending (f : Link → Link) : (s.modLink f).pending = s.pending := rfl

/-! ### Reading back -/

@[simp] theorem State.cam_modCam (k : Port) (f : CameraPort → CameraPort) : (s.modCam k f).cam k = f (s.cam k) := by
  simp [State.cam, State.modCam]

theorem State.cam_modCam_ne {j k : Port} (f : CameraPort → CameraPort) (h : j ≠ k) : (s.modCam k f).cam j = s.cam j := by
  have : k.val ≠ j.val := fun e => h (Fin.ext e.symm)
  simp [State.cam, State.modCam, this]

@[simp] theorem State.sup_modSup (k : Port) (f : Supervisor → Supervisor) : (s.modSup k f).sup k = f (s.sup k) := by
  simp [State.sup, State.modSup]

theorem State.sup_modSup_ne {j k : Port} (f : Supervisor → Supervisor) (h : j ≠ k) :
    (s.modSup k f).sup j = s.sup j := by
  have : k.val ≠ j.val := fun e => h (Fin.ext e.symm)
  simp [State.sup, State.modSup, this]

@[simp] theorem State.chan_modChan (c : Chan) (f : Channel → Channel) : (s.modChan c f).chan c = f (s.chan c) := by
  simp [State.chan, State.modChan]

theorem State.chan_modChan_ne {b c : Chan} (f : Channel → Channel) (h : b ≠ c) :
    (s.modChan c f).chan b = s.chan b := by
  have : c.val ≠ b.val := fun e => h (Fin.ext e.symm)
  simp [State.chan, State.modChan, this]

@[simp] theorem State.liveQueue_setLive (k : Port) (q : List Nat) : (s.setLive k q).liveQueue k = q := by
  simp [State.liveQueue, State.setLive]

theorem State.liveQueue_setLive_ne {j k : Port} (q : List Nat) (h : j ≠ k) :
    (s.setLive k q).liveQueue j = s.liveQueue j := by
  have : k.val ≠ j.val := fun e => h (Fin.ext e.symm)
  simp [State.liveQueue, State.setLive, this]

@[simp] theorem State.slot_setSlot (k : Port) (t : Option TriggerSlot) : (s.setSlot k t).slot k = t := by
  simp [State.slot, State.setSlot]

theorem State.slot_setSlot_ne {j k : Port} (t : Option TriggerSlot) (h : j ≠ k) :
    (s.setSlot k t).slot j = s.slot j := by
  have : k.val ≠ j.val := fun e => h (Fin.ext e.symm)
  simp [State.slot, State.setSlot, this]

@[simp] theorem State.lock_setLock (l : Fin 13) (e : Option Lock) : (s.setLock l e).lock l = e := by
  simp [State.lock, State.setLock]

theorem State.lock_setLock_ne {j l : Fin 13} (e : Option Lock) (h : j ≠ l) : (s.setLock l e).lock j = s.lock j := by
  have : l.val ≠ j.val := fun e => h (Fin.ext e.symm)
  simp [State.lock, State.setLock, this]

@[simp] theorem State.modLink_link (f : Link → Link) : (s.modLink f).link = f s.link := rfl

/-! ### Accessors under updates of other blocks -/

@[simp] theorem State.sup_modCam (k : Port) (f : CameraPort → CameraPort) (j : Port) : (s.modCam k f).sup j = s.sup j := rfl
@[simp] theorem State.chan_modCam (k : Port) (f : CameraPort → CameraPort) (d : Chan) : (s.modCam k f).chan d = s.chan d := rfl
@[simp] theorem State.liveQueue_modCam (k : Port) (f : CameraPort → CameraPort) (j : Port) : (s.modCam k f).liveQueue j = s.liveQueue j := rfl
@[simp] theorem State.slot_modCam (k : Port) (f : CameraPort → CameraPort) (j : Port) : (s.modCam k f).slot j = s.slot j := rfl
@[simp] theorem State.lock_modCam (k : Port) (f : CameraPort → CameraPort) (m : Fin 13) : (s.modCam k f).lock m = s.lock m := rfl
@[simp] theorem State.record_modCam (k : Port) (f : CameraPort → CameraPort) (i : Nat) : (s.modCam k f).record i = s.record i := rfl
@[simp] theorem State.lookup_modCam (k : Port) (f : CameraPort → CameraPort) (j : Port) (i : Half) : (s.modCam k f).lookup j i = s.lookup j i := rfl
@[simp] theorem State.cam_modSup (k : Port) (f : Supervisor → Supervisor) (j : Port) : (s.modSup k f).cam j = s.cam j := rfl
@[simp] theorem State.chan_modSup (k : Port) (f : Supervisor → Supervisor) (d : Chan) : (s.modSup k f).chan d = s.chan d := rfl
@[simp] theorem State.liveQueue_modSup (k : Port) (f : Supervisor → Supervisor) (j : Port) : (s.modSup k f).liveQueue j = s.liveQueue j := rfl
@[simp] theorem State.slot_modSup (k : Port) (f : Supervisor → Supervisor) (j : Port) : (s.modSup k f).slot j = s.slot j := rfl
@[simp] theorem State.lock_modSup (k : Port) (f : Supervisor → Supervisor) (m : Fin 13) : (s.modSup k f).lock m = s.lock m := rfl
@[simp] theorem State.record_modSup (k : Port) (f : Supervisor → Supervisor) (i : Nat) : (s.modSup k f).record i = s.record i := rfl
@[simp] theorem State.lookup_modSup (k : Port) (f : Supervisor → Supervisor) (j : Port) (i : Half) : (s.modSup k f).lookup j i = s.lookup j i := rfl
@[simp] theorem State.cam_modChan (c : Chan) (f : Channel → Channel) (j : Port) : (s.modChan c f).cam j = s.cam j := rfl
@[simp] theorem State.sup_modChan (c : Chan) (f : Channel → Channel) (j : Port) : (s.modChan c f).sup j = s.sup j := rfl
@[simp] theorem State.liveQueue_modChan (c : Chan) (f : Channel → Channel) (j : Port) : (s.modChan c f).liveQueue j = s.liveQueue j := rfl
@[simp] theorem State.slot_modChan (c : Chan) (f : Channel → Channel) (j : Port) : (s.modChan c f).slot j = s.slot j := rfl
@[simp] theorem State.lock_modChan (c : Chan) (f : Channel → Channel) (m : Fin 13) : (s.modChan c f).lock m = s.lock m := rfl
@[simp] theorem State.record_modChan (c : Chan) (f : Channel → Channel) (i : Nat) : (s.modChan c f).record i = s.record i := rfl
@[simp] theorem State.lookup_modChan (c : Chan) (f : Channel → Channel) (j : Port) (i : Half) : (s.modChan c f).lookup j i = s.lookup j i := rfl
@[simp] theorem State.cam_setLive (k : Port) (q : List Nat) (j : Port) : (s.setLive k q).cam j = s.cam j := rfl
@[simp] theorem State.sup_setLive (k : Port) (q : List Nat) (j : Port) : (s.setLive k q).sup j = s.sup j := rfl
@[simp] theorem State.chan_setLive (k : Port) (q : List Nat) (d : Chan) : (s.setLive k q).chan d = s.chan d := rfl
@[simp] theorem State.slot_setLive (k : Port) (q : List Nat) (j : Port) : (s.setLive k q).slot j = s.slot j := rfl
@[simp] theorem State.lock_setLive (k : Port) (q : List Nat) (m : Fin 13) : (s.setLive k q).lock m = s.lock m := rfl
@[simp] theorem State.record_setLive (k : Port) (q : List Nat) (i : Nat) : (s.setLive k q).record i = s.record i := rfl
@[simp] theorem State.lookup_setLive (k : Port) (q : List Nat) (j : Port) (i : Half) : (s.setLive k q).lookup j i = s.lookup j i := rfl
@[simp] theorem State.cam_setSlot (k : Port) (t : Option TriggerSlot) (j : Port) : (s.setSlot k t).cam j = s.cam j := rfl
@[simp] theorem State.sup_setSlot (k : Port) (t : Option TriggerSlot) (j : Port) : (s.setSlot k t).sup j = s.sup j := rfl
@[simp] theorem State.chan_setSlot (k : Port) (t : Option TriggerSlot) (d : Chan) : (s.setSlot k t).chan d = s.chan d := rfl
@[simp] theorem State.liveQueue_setSlot (k : Port) (t : Option TriggerSlot) (j : Port) : (s.setSlot k t).liveQueue j = s.liveQueue j := rfl
@[simp] theorem State.lock_setSlot (k : Port) (t : Option TriggerSlot) (m : Fin 13) : (s.setSlot k t).lock m = s.lock m := rfl
@[simp] theorem State.record_setSlot (k : Port) (t : Option TriggerSlot) (i : Nat) : (s.setSlot k t).record i = s.record i := rfl
@[simp] theorem State.lookup_setSlot (k : Port) (t : Option TriggerSlot) (j : Port) (i : Half) : (s.setSlot k t).lookup j i = s.lookup j i := rfl
@[simp] theorem State.cam_setLock (l : Fin 13) (e : Option Lock) (j : Port) : (s.setLock l e).cam j = s.cam j := rfl
@[simp] theorem State.sup_setLock (l : Fin 13) (e : Option Lock) (j : Port) : (s.setLock l e).sup j = s.sup j := rfl
@[simp] theorem State.chan_setLock (l : Fin 13) (e : Option Lock) (d : Chan) : (s.setLock l e).chan d = s.chan d := rfl
@[simp] theorem State.liveQueue_setLock (l : Fin 13) (e : Option Lock) (j : Port) : (s.setLock l e).liveQueue j = s.liveQueue j := rfl
@[simp] theorem State.slot_setLock (l : Fin 13) (e : Option Lock) (j : Port) : (s.setLock l e).slot j = s.slot j := rfl
@[simp] theorem State.record_setLock (l : Fin 13) (e : Option Lock) (i : Nat) : (s.setLock l e).record i = s.record i := rfl
@[simp] theorem State.lookup_setLock (l : Fin 13) (e : Option Lock) (j : Port) (i : Half) : (s.setLock l e).lookup j i = s.lookup j i := rfl
@[simp] theorem State.cam_setRecord (n : Nat) (r : FrameRecord) (j : Port) : (s.setRecord n r).cam j = s.cam j := rfl
@[simp] theorem State.sup_setRecord (n : Nat) (r : FrameRecord) (j : Port) : (s.setRecord n r).sup j = s.sup j := rfl
@[simp] theorem State.chan_setRecord (n : Nat) (r : FrameRecord) (d : Chan) : (s.setRecord n r).chan d = s.chan d := rfl
@[simp] theorem State.liveQueue_setRecord (n : Nat) (r : FrameRecord) (j : Port) : (s.setRecord n r).liveQueue j = s.liveQueue j := rfl
@[simp] theorem State.slot_setRecord (n : Nat) (r : FrameRecord) (j : Port) : (s.setRecord n r).slot j = s.slot j := rfl
@[simp] theorem State.lock_setRecord (n : Nat) (r : FrameRecord) (m : Fin 13) : (s.setRecord n r).lock m = s.lock m := rfl
@[simp] theorem State.lookup_setRecord (n : Nat) (r : FrameRecord) (j : Port) (i : Half) : (s.setRecord n r).lookup j i = s.lookup j i := rfl
@[simp] theorem State.cam_modRecord (n : Nat) (f : FrameRecord → FrameRecord) (j : Port) : (s.modRecord n f).cam j = s.cam j := rfl
@[simp] theorem State.sup_modRecord (n : Nat) (f : FrameRecord → FrameRecord) (j : Port) : (s.modRecord n f).sup j = s.sup j := rfl
@[simp] theorem State.chan_modRecord (n : Nat) (f : FrameRecord → FrameRecord) (d : Chan) : (s.modRecord n f).chan d = s.chan d := rfl
@[simp] theorem State.liveQueue_modRecord (n : Nat) (f : FrameRecord → FrameRecord) (j : Port) : (s.modRecord n f).liveQueue j = s.liveQueue j := rfl
@[simp] theorem State.slot_modRecord (n : Nat) (f : FrameRecord → FrameRecord) (j : Port) : (s.modRecord n f).slot j = s.slot j := rfl
@[simp] theorem State.lock_modRecord (n : Nat) (f : FrameRecord → FrameRecord) (m : Fin 13) : (s.modRecord n f).lock m = s.lock m := rfl
@[simp] theorem State.lookup_modRecord (n : Nat) (f : FrameRecord → FrameRecord) (j : Port) (i : Half) : (s.modRecord n f).lookup j i = s.lookup j i := rfl
@[simp] theorem State.cam_setLookup (k : Port) (n : Half) (e : Option Nat) (j : Port) : (s.setLookup k n e).cam j = s.cam j := rfl
@[simp] theorem State.sup_setLookup (k : Port) (n : Half) (e : Option Nat) (j : Port) : (s.setLookup k n e).sup j = s.sup j := rfl
@[simp] theorem State.chan_setLookup (k : Port) (n : Half) (e : Option Nat) (d : Chan) : (s.setLookup k n e).chan d = s.chan d := rfl
@[simp] theorem State.liveQueue_setLookup (k : Port) (n : Half) (e : Option Nat) (j : Port) : (s.setLookup k n e).liveQueue j = s.liveQueue j := rfl
@[simp] theorem State.slot_setLookup (k : Port) (n : Half) (e : Option Nat) (j : Port) : (s.setLookup k n e).slot j = s.slot j := rfl
@[simp] theorem State.lock_setLookup (k : Port) (n : Half) (e : Option Nat) (m : Fin 13) : (s.setLookup k n e).lock m = s.lock m := rfl
@[simp] theorem State.record_setLookup (k : Port) (n : Half) (e : Option Nat) (i : Nat) : (s.setLookup k n e).record i = s.record i := rfl
@[simp] theorem State.cam_raise (g : GlobalEvent) (j : Port) : (s.raise g).cam j = s.cam j := rfl
@[simp] theorem State.sup_raise (g : GlobalEvent) (j : Port) : (s.raise g).sup j = s.sup j := rfl
@[simp] theorem State.chan_raise (g : GlobalEvent) (d : Chan) : (s.raise g).chan d = s.chan d := rfl
@[simp] theorem State.liveQueue_raise (g : GlobalEvent) (j : Port) : (s.raise g).liveQueue j = s.liveQueue j := rfl
@[simp] theorem State.slot_raise (g : GlobalEvent) (j : Port) : (s.raise g).slot j = s.slot j := rfl
@[simp] theorem State.lock_raise (g : GlobalEvent) (m : Fin 13) : (s.raise g).lock m = s.lock m := rfl
@[simp] theorem State.record_raise (g : GlobalEvent) (i : Nat) : (s.raise g).record i = s.record i := rfl
@[simp] theorem State.lookup_raise (g : GlobalEvent) (j : Port) (i : Half) : (s.raise g).lookup j i = s.lookup j i := rfl
@[simp] theorem State.cam_raisePort (k : Port) (p : PortEvent) (j : Port) : (s.raisePort k p).cam j = s.cam j := rfl
@[simp] theorem State.sup_raisePort (k : Port) (p : PortEvent) (j : Port) : (s.raisePort k p).sup j = s.sup j := rfl
@[simp] theorem State.chan_raisePort (k : Port) (p : PortEvent) (d : Chan) : (s.raisePort k p).chan d = s.chan d := rfl
@[simp] theorem State.liveQueue_raisePort (k : Port) (p : PortEvent) (j : Port) : (s.raisePort k p).liveQueue j = s.liveQueue j := rfl
@[simp] theorem State.slot_raisePort (k : Port) (p : PortEvent) (j : Port) : (s.raisePort k p).slot j = s.slot j := rfl
@[simp] theorem State.lock_raisePort (k : Port) (p : PortEvent) (m : Fin 13) : (s.raisePort k p).lock m = s.lock m := rfl
@[simp] theorem State.record_raisePort (k : Port) (p : PortEvent) (i : Nat) : (s.raisePort k p).record i = s.record i := rfl
@[simp] theorem State.lookup_raisePort (k : Port) (p : PortEvent) (j : Port) (i : Half) : (s.raisePort k p).lookup j i = s.lookup j i := rfl
@[simp] theorem State.cam_count (k : Port) (c : PortCount) (j : Port) : (s.count k c).cam j = s.cam j := rfl
@[simp] theorem State.sup_count (k : Port) (c : PortCount) (j : Port) : (s.count k c).sup j = s.sup j := rfl
@[simp] theorem State.chan_count (k : Port) (c : PortCount) (d : Chan) : (s.count k c).chan d = s.chan d := rfl
@[simp] theorem State.liveQueue_count (k : Port) (c : PortCount) (j : Port) : (s.count k c).liveQueue j = s.liveQueue j := rfl
@[simp] theorem State.slot_count (k : Port) (c : PortCount) (j : Port) : (s.count k c).slot j = s.slot j := rfl
@[simp] theorem State.lock_count (k : Port) (c : PortCount) (m : Fin 13) : (s.count k c).lock m = s.lock m := rfl
@[simp] theorem State.record_count (k : Port) (c : PortCount) (i : Nat) : (s.count k c).record i = s.record i := rfl
@[simp] theorem State.lookup_count (k : Port) (c : PortCount) (j : Port) (i : Half) : (s.count k c).lookup j i = s.lookup j i := rfl
@[simp] theorem State.cam_countGlobal (c : GlobalCount) (n : Nat) (j : Port) : (s.countGlobal c n).cam j = s.cam j := rfl
@[simp] theorem State.sup_countGlobal (c : GlobalCount) (n : Nat) (j : Port) : (s.countGlobal c n).sup j = s.sup j := rfl
@[simp] theorem State.chan_countGlobal (c : GlobalCount) (n : Nat) (d : Chan) : (s.countGlobal c n).chan d = s.chan d := rfl
@[simp] theorem State.liveQueue_countGlobal (c : GlobalCount) (n : Nat) (j : Port) : (s.countGlobal c n).liveQueue j = s.liveQueue j := rfl
@[simp] theorem State.slot_countGlobal (c : GlobalCount) (n : Nat) (j : Port) : (s.countGlobal c n).slot j = s.slot j := rfl
@[simp] theorem State.lock_countGlobal (c : GlobalCount) (n : Nat) (m : Fin 13) : (s.countGlobal c n).lock m = s.lock m := rfl
@[simp] theorem State.record_countGlobal (c : GlobalCount) (n : Nat) (i : Nat) : (s.countGlobal c n).record i = s.record i := rfl
@[simp] theorem State.lookup_countGlobal (c : GlobalCount) (n : Nat) (j : Port) (i : Half) : (s.countGlobal c n).lookup j i = s.lookup j i := rfl
@[simp] theorem State.cam_modLink (f : Link → Link) (j : Port) : (s.modLink f).cam j = s.cam j := rfl
@[simp] theorem State.sup_modLink (f : Link → Link) (j : Port) : (s.modLink f).sup j = s.sup j := rfl
@[simp] theorem State.chan_modLink (f : Link → Link) (d : Chan) : (s.modLink f).chan d = s.chan d := rfl
@[simp] theorem State.liveQueue_modLink (f : Link → Link) (j : Port) : (s.modLink f).liveQueue j = s.liveQueue j := rfl
@[simp] theorem State.slot_modLink (f : Link → Link) (j : Port) : (s.modLink f).slot j = s.slot j := rfl
@[simp] theorem State.lock_modLink (f : Link → Link) (m : Fin 13) : (s.modLink f).lock m = s.lock m := rfl
@[simp] theorem State.record_modLink (f : Link → Link) (i : Nat) : (s.modLink f).record i = s.record i := rfl
@[simp] theorem State.lookup_modLink (f : Link → Link) (j : Port) (i : Half) : (s.modLink f).lookup j i = s.lookup j i := rfl

end Sys2Proof.Machine
end

