-- ==== Sys2Proof/Laws/Table.lean ====
section
/-! SUPPORT. The laws of sparse tables: reading after a write, keeping the canonical form, and bytes written in a row. -/

namespace Sys2Proof.Machine

/-- A key below every listed one reads as the default. -/
theorem Table.get_of_all_gt {α : Type} {d : α} {t : Table α} {k : Nat} (h : ∀ p ∈ t, k < p.1) : Table.get d t k = d := by
  cases t with
  | nil => rfl
  | cons p t => simp [Table.get, h p (by simp)]

section
variable {α : Type} [DecidableEq α] {d : α}

/-- A value that is not the default is read back after it is written, whatever the table. -/
theorem Table.get_set_same_ne (t : Table α) (k : Nat) {v : α} (hv : v ≠ d) :
    Table.get d (Table.set d t k v) k = v := by
  induction t with
  | nil => simp [Table.set, Table.get, hv]
  | cons p t ih =>
    obtain ⟨a, x⟩ := p
    simp only [Table.set]
    split
    · simp [Table.get]
    · split
      · simp [Table.get]
      · rename_i h1 h2
        simp [Table.get, h1, h2, ih]

/-- What was written is read back from a table in canonical form. -/
theorem Table.get_set_same {t : Table α} (ht : Table.wf d t) (k : Nat) (v : α) :
    Table.get d (Table.set d t k v) k = v := by
  by_cases hv : v = d
  · subst hv
    induction t with
    | nil => simp [Table.set, Table.get]
    | cons p t ih =>
      obtain ⟨a, x⟩ := p
      have hp := List.pairwise_cons.mp ht.1
      have ht' : Table.wf v t := ⟨hp.2, fun q hq => ht.2 q (by simp [hq])⟩
      simp only [Table.set]
      split
      · rename_i h; simp [Table.get, h]
      · split
        · rename_i h1 h2; subst h2; simpa using Table.get_of_all_gt (d := v) (fun q hq => hp.1 q hq)
        · rename_i h1 h2; simp [Table.get, h1, h2, ih ht']
  · exact Table.get_set_same_ne t k hv

/-- A write leaves every other key as it was, in a table in canonical form. -/
theorem Table.get_set_other {t : Table α} (ht : Table.wf d t) {k j : Nat} (h : j ≠ k) (v : α) :
    Table.get d (Table.set d t k v) j = Table.get d t j := by
  induction t with
  | nil =>
    simp only [Table.set]
    split
    · rfl
    · simp only [Table.get]; split <;> simp
  | cons p t ih =>
    obtain ⟨a, x⟩ := p
    have hp := List.pairwise_cons.mp ht.1
    have ht' : Table.wf d t := ⟨hp.2, fun q hq => ht.2 q (by simp [hq])⟩
    simp only [Table.set]
    split
    · rename_i hk
      split
      · rfl
      · by_cases hj : j < k
        · simp [Table.get, hj, Nat.lt_trans hj hk]
        · simp [Table.get, hj, h]
    · split
      · rename_i h1 h2
        subst h2
        split
        · simp only [Table.get]
          split
          · rename_i hj
            exact Table.get_of_all_gt fun q hq => Nat.lt_trans hj (hp.1 q hq)
          · simp
        · simp [Table.get, h]
      · simp only [Table.get, ih ht']

/-- A second write of the same key replaces the first, when the first wrote a value that is not the default. -/
theorem Table.set_set_ne (t : Table α) (k : Nat) {v : α} (w : α) (hv : v ≠ d) (hw : w ≠ d) :
    Table.set d (Table.set d t k v) k w = Table.set d t k w := by
  induction t with
  | nil => simp [Table.set, hv, hw]
  | cons p t ih =>
    obtain ⟨a, x⟩ := p
    by_cases h1 : k < a
    · simp [Table.set, h1, hv, hw]
    · by_cases h2 : k = a
      · simp [Table.set, h2, hv, hw]
      · simp [Table.set, h1, h2, ih]

/-- A write of a key above a bound keeps every key above it. -/
theorem Table.keys_set {t : Table α} {k b : Nat} {v : α} (hb : b < k) (h : ∀ p ∈ t, b < p.1) :
    ∀ p ∈ Table.set d t k v, b < p.1 := by
  induction t with
  | nil =>
    intro p hp
    simp only [Table.set] at hp
    split at hp <;> simp_all
  | cons q t ih =>
    obtain ⟨a, x⟩ := q
    intro p hp
    simp only [Table.set] at hp
    have ha : b < a := h (a, x) (by simp)
    have ht : ∀ p ∈ t, b < p.1 := fun p hp => h p (by simp [hp])
    split at hp
    · split at hp
      · exact h p hp
      · rcases List.mem_cons.mp hp with rfl | hp
        · exact hb
        · exact h p hp
    · split at hp
      · split at hp
        · exact ht p hp
        · rcases List.mem_cons.mp hp with rfl | hp
          · exact hb
          · exact ht p hp
      · rcases List.mem_cons.mp hp with rfl | hp
        · exact ha
        · exact ih ht p hp

/-- A write keeps the canonical form. -/
theorem Table.wf_set {t : Table α} (ht : Table.wf d t) (k : Nat) (v : α) : Table.wf d (Table.set d t k v) := by
  induction t with
  | nil =>
    simp only [Table.set]
    split
    · exact ht
    · rename_i hv; simp [Table.wf, hv]
  | cons p t ih =>
    obtain ⟨a, x⟩ := p
    have hp := List.pairwise_cons.mp ht.1
    have ht' : Table.wf d t := ⟨hp.2, fun q hq => ht.2 q (by simp [hq])⟩
    have hx : x ≠ d := ht.2 (a, x) (by simp)
    simp only [Table.set]
    split
    · rename_i hk
      split
      · exact ht
      · rename_i hv
        refine ⟨List.pairwise_cons.mpr ⟨?_, ht.1⟩, ?_⟩
        · intro q hq
          rcases List.mem_cons.mp hq with rfl | hq
          · exact hk
          · exact Nat.lt_trans hk (hp.1 q hq)
        · intro q hq
          rcases List.mem_cons.mp hq with rfl | hq
          · exact hv
          · exact ht.2 q hq
    · split
      · rename_i h1 h2
        split
        · exact ht'
        · rename_i hv
          refine ⟨List.pairwise_cons.mpr ⟨fun q hq => h2 ▸ hp.1 q hq, hp.2⟩, ?_⟩
          intro q hq
          rcases List.mem_cons.mp hq with rfl | hq
          · exact hv
          · exact ht'.2 q hq
      · rename_i h1 h2
        have := ih ht'
        refine ⟨List.pairwise_cons.mpr ⟨Table.keys_set (by omega) (fun q hq => hp.1 q hq), this.1⟩, ?_⟩
        intro q hq
        rcases List.mem_cons.mp hq with rfl | hq
        · exact hx
        · exact this.2 q hq

/-- Applying a function to every listed value keeps the canonical form. -/
theorem Table.wf_mapValues {t : Table α} (ht : Table.wf d t) (f : α → α) : Table.wf d (Table.mapValues d f t) := by
  refine ⟨?_, ?_⟩
  · refine List.Pairwise.filter _ (List.Pairwise.map _ ?_ ht.1)
    intro p q h; exact h
  · intro p hp
    simpa using (List.mem_filter.mp hp).2

/-- Reading a table every listed value of which a function was applied to, when the function fixes the default. -/
theorem Table.get_mapValues {t : Table α} (ht : Table.wf d t) (f : α → α) (hf : f d = d) (k : Nat) :
    Table.get d (Table.mapValues d f t) k = f (Table.get d t k) := by
  induction t with
  | nil => simp [Table.mapValues, Table.get, hf]
  | cons p t ih =>
    obtain ⟨a, x⟩ := p
    have hp := List.pairwise_cons.mp ht.1
    have ht' : Table.wf d t := ⟨hp.2, fun q hq => ht.2 q (by simp [hq])⟩
    have ih := ih ht'
    have hgt : ∀ q ∈ Table.mapValues d f t, a < q.1 := by
      intro q hq
      obtain ⟨r, hr, rfl⟩ := List.mem_map.mp (List.mem_filter.mp hq).1
      exact hp.1 r hr
    have hcons : Table.mapValues d f ((a, x) :: t) =
        if f x = d then Table.mapValues d f t else (a, f x) :: Table.mapValues d f t := by
      by_cases hfx : f x = d <;> simp [Table.mapValues, hfx]
    rw [hcons]
    by_cases h1 : k < a
    · have h2 : ∀ q ∈ Table.mapValues d f t, k < q.1 := fun q hq => Nat.lt_trans h1 (hgt q hq)
      split <;> simp [Table.get, h1, hf, Table.get_of_all_gt h2]
    · by_cases h2 : k = a
      · subst h2
        split
        · rename_i hfx
          rw [Table.get_of_all_gt hgt]; simp [Table.get, hfx]
        · simp [Table.get]
      · split <;> simp [Table.get, h1, h2, ih]

end

/-- In a table in canonical form, the listed values with a property the default lacks are as many as the keys that read a
value with it. -/
theorem Table.filter_length_eq {α : Type} {d : α} {t : Table α} (ht : Table.wf d t) {p : α → Bool} (hd : p d = false) {l : List Nat}
    (hl : l.Nodup) (hm : ∀ n, n ∈ l ↔ p (Table.get d t n) = true) :
    (t.filter fun e => p e.2).length = l.length := by
  have perm : ((t.filter fun e => p e.2).map Prod.fst).Perm l := by
    refine (List.perm_ext_iff_of_nodup ?_ hl).mpr fun n => ?_
    · exact List.Pairwise.map Prod.fst (R := fun x y => x.1 < y.1) (fun _ _ h => Nat.ne_of_lt h) (ht.1.filter _)
    · rw [hm n]
      simp only [List.mem_map, List.mem_filter, Prod.exists, exists_and_right, exists_eq_right]
      clear hm
      induction t with
      | nil => simp [Table.get, hd]
      | cons x t ih =>
        obtain ⟨a, r⟩ := x
        have hp := List.pairwise_cons.mp ht.1
        have ih := ih ⟨hp.2, fun q hq => ht.2 q (List.mem_cons_of_mem _ hq)⟩
        by_cases h1 : n < a
        · have hn : ∀ v, (n, v) ∉ (a, r) :: t := by
            intro v hv
            rcases List.mem_cons.mp hv with e | hv
            · cases e; omega
            · have := hp.1 _ hv; simp at this; omega
          simp only [Table.get, h1, if_true, hd, hn, false_and, exists_false, Bool.false_eq_true]
        · by_cases h2 : n = a
          · subst h2
            have hn : ∀ v, (n, v) ∈ (n, r) :: t → v = r := by
              intro v hv
              rcases List.mem_cons.mp hv with e | hv
              · cases e; rfl
              · have := hp.1 _ hv; simp at this
            simp only [Table.get, h1, if_false, if_true]
            exact ⟨fun ⟨v, hv, hpv⟩ => hn v hv ▸ hpv, fun h => ⟨r, by simp, h⟩⟩
          · simp only [Table.get, h1, h2, if_false, ← ih]
            simp [h2]
  simpa using perm.length_eq

/-! ### Records -/

/-- A record that is in use is read back as it was written. -/
theorem State.record_setRecord_of_used (s : State) (n : Nat) {r : FrameRecord} (h : r.state ≠ .free) :
    (s.setRecord n r).record n = r :=
  Table.get_set_same_ne _ _ (fun e => h (by rw [e]; rfl))

/-- A record is read back as it was written to a catalogue in canonical form. -/
theorem State.record_setRecord {s : State} (hs : Table.wf FrameRecord.blank s.store.catalogue) (n : Nat)
    (r : FrameRecord) : (s.setRecord n r).record n = r :=
  Table.get_set_same hs n r

/-- Writing a record leaves the others as they were. -/
theorem State.record_setRecord_other {s : State} (hs : Table.wf FrameRecord.blank s.store.catalogue) {n m : Nat}
    (h : m ≠ n) (r : FrameRecord) : (s.setRecord n r).record m = s.record m :=
  Table.get_set_other hs h r

/-- Writing a record twice is writing it once, for records in use. -/
theorem State.setRecord_setRecord (s : State) (n : Nat) {r q : FrameRecord} (hr : r.state ≠ .free)
    (hq : q.state ≠ .free) : (s.setRecord n r).setRecord n q = s.setRecord n q := by
  have h := Table.set_set_ne (d := FrameRecord.blank) s.store.catalogue n q (v := r)
    (fun e => hr (by rw [e]; rfl)) (fun e => hq (by rw [e]; rfl))
  simp only [State.setRecord, h]

/-! ### Frame memory -/

/-- Writing bytes in a row keeps the canonical form. -/
theorem writeMem_wf {mem : List Host.Cell} (h : Memory.wf mem) (a : Nat) (bytes : List Byte) :
    Memory.wf (writeMem mem a bytes) := by
  induction bytes generalizing mem a with
  | nil => exact h
  | cons b rest ih => exact ih (Table.wf_set h a b) (a + 1)

/-- An address outside the written bytes reads as before. -/
theorem get_writeMem_outside {mem : List Host.Cell} (h : Memory.wf mem) (a : Nat) (bytes : List Byte) {x : Nat}
    (hx : x < a ∨ a + bytes.length ≤ x) : Table.get 0 (writeMem mem a bytes) x = Table.get 0 mem x := by
  induction bytes generalizing mem a with
  | nil => rfl
  | cons b rest ih =>
    simp only [List.length_cons] at hx
    rw [writeMem, ih (Table.wf_set h a b) (a + 1) (by omega)]
    exact Table.get_set_other h (by omega) b

/-- An address among the written bytes reads the byte written there. -/
theorem get_writeMem_inside {mem : List Host.Cell} (h : Memory.wf mem) (a : Nat) (bytes : List Byte) {i : Nat}
    (hi : i < bytes.length) : Table.get 0 (writeMem mem a bytes) (a + i) = bytes[i] := by
  induction bytes generalizing mem a i with
  | nil => simp at hi
  | cons b rest ih =>
    rw [writeMem]
    cases i with
    | zero =>
      rw [get_writeMem_outside (Table.wf_set h a b) (a + 1) rest (by omega)]
      simpa using Table.get_set_same h a b
    | succ i =>
      have := ih (Table.wf_set h a b) (a + 1) (i := i) (by simpa using hi)
      rw [show a + (i + 1) = a + 1 + i by omega, this]
      rfl

end Sys2Proof.Machine
end

