-- ==== Sys2Proof/Laws/Ops.lean ====
section
/-! SUPPORT. What each shared operation can do, said once: records, lane tests, requests, the dark-port detector, memory. -/

namespace Sys2Proof.Machine

/-! ### Records and ports -/

/-- Changing a record is writing what it becomes. -/
theorem State.modRecord_eq (s : State) (n : Nat) (f : FrameRecord → FrameRecord) :
    s.modRecord n f = s.setRecord n (f (s.record n)) := rfl

/-- Writing a record and changing it is writing it changed, for records in use. -/
theorem State.setRecord_modRecord (s : State) (n : Nat) (r : FrameRecord) (g : FrameRecord → FrameRecord)
    (hr : r.state ≠ .free) (hg : (g r).state ≠ .free) : (s.setRecord n r).modRecord n g = s.setRecord n (g r) := by
  rw [State.modRecord_eq, State.record_setRecord_of_used _ _ hr, State.setRecord_setRecord _ _ hr hg]

/-- Two changes of one camera port are one. -/
theorem State.modCam_modCam (s : State) (k : Port) (f g : CameraPort → CameraPort) :
    (s.modCam k f).modCam k g = s.modCam k fun p => g (f p) := by
  simp [State.modCam]

/-- Two changes of one supervisor are one. -/
theorem State.modSup_modSup (s : State) (k : Port) (f g : Supervisor → Supervisor) :
    (s.modSup k f).modSup k g = s.modSup k fun p => g (f p) := by
  simp [State.modSup]

/-- Two changes of one channel are one. -/
theorem State.modChan_modChan (s : State) (c : Chan) (f g : Channel → Channel) :
    (s.modChan c f).modChan c g = s.modChan c fun p => g (f p) := by
  simp [State.modChan]

/-- Changes of a supervisor that agree on it are the same change. -/
theorem State.modSup_congr (s : State) (k : Port) {f g : Supervisor → Supervisor} (h : f (s.sup k) = g (s.sup k)) :
    s.modSup k f = s.modSup k g := by
  have h' : f s.sups[k] = g s.sups[k] := h
  simp only [State.modSup, h']

/-- Changes of a channel that agree on it are the same change. -/
theorem State.modChan_congr (s : State) (c : Chan) {f g : Channel → Channel} (h : f (s.chan c) = g (s.chan c)) :
    s.modChan c f = s.modChan c g := by
  have h' : f s.uplink.chans[c] = g s.uplink.chans[c] := h
  simp only [State.modChan, h']

/-- Changes of a camera port that agree on it are the same change. -/
theorem State.modCam_congr (s : State) (k : Port) {f g : CameraPort → CameraPort} (h : f (s.cam k) = g (s.cam k)) :
    s.modCam k f = s.modCam k g := by
  have h' : f s.cams[k] = g s.cams[k] := h
  simp only [State.modCam, h']

/-! ### Lane tests -/

/-- A receiving port's reception logic takes messages. -/
theorem receives_of_receiving {u : SupState} (h : receiving u) : receives u = true := by
  rcases h with rfl | rfl | rfl | rfl <;> rfl

/-- An OPEN passes the oversize test exactly when its dimensions are in range. -/
theorem oversize_eq_false_iff (w h : Half) (b : Byte) :
    oversize w.toNat h.toNat b.toNat = false ↔ dimensionsOk w.toNat h.toNat b.toNat := by
  have := h.isLt
  simp only [oversize, dimensionsOk, Config.frameLimit, Bool.or_eq_false_iff, decide_eq_false_iff_not]
  generalize w.toNat * b.toNat = x
  generalize w.toNat * h.toNat * b.toNat = y
  omega

/-- A test of a line as one value of the flags. -/
theorem FrameRecord.flagIf_eq (r : FrameRecord) (c : Bool) (f : LaneFlag) :
    r.flagIf c f = { r with flags := r.flags ||| if c then f.only else 0 } := by
  unfold FrameRecord.flagIf FrameRecord.flag
  split <;> simp_all

/-! ### Memory -/

/-- Sound blocks are left alone by a write. -/
theorem foldl_recoverBlock_sound (s : State) (hs : ∀ b, s.blockHealth b = .sound) (l : List Nat) :
    l.foldl (fun s b => recoverBlock b s) s = s := by
  induction l with
  | nil => rfl
  | cons b l ih =>
    have : recoverBlock b s = s := by simp [recoverBlock, hs b]
    simpa [this] using ih

/-- A write of frame bytes with no block in error changes memory alone. -/
theorem writeBytes_sound (s : State) (hs : ∀ b, s.blockHealth b = .sound) (a : Nat) (bytes : List Byte) :
    writeBytes a bytes s = { s with store := { s.store with mem := writeMem s.store.mem a bytes } } := by
  unfold writeBytes; simp [foldl_recoverBlock_sound s hs]

/-! ### Requests -/

/-- A request that is taken is handled by its own rule and answered. -/
theorem arrive_of_takable {m : Master} {s : State} (h : takable m s) (ref : Half) {req : Request}
    (hf : formsAnswer req = true) :
    arrive m ref req s = answered m (answerTo ref (requestKind req) (handle m req (heard m s)).2)
      (handle m req (heard m s)).1 := by
  cases m with
  | line => rfl
  | office =>
    obtain ⟨h1, h2⟩ := h
    have : ¬ 8 ≤ s.reqs.officeAnswers.length := by omega
    simp [arrive, h1, officeRequestCell, Config.officeAnswerMax, this, answerOffice, hf, heard, answered]

/-- A write of a setting that passes every test. -/
theorem handleWrite_setting {m : Master} {record field : Byte} {v : Word} {s : State} {x : Setting}
    (hx : resolveField record field = .ok (.setting x)) (hw : wrongMask m record = false)
    (hl : lockedByOther m record s = false) (hv : valueRefused x v s = none) :
    handleWrite m record field v s = (writeSetting x v s, doneWith (be32 (readSetting (writeSetting x v s) x))) := by
  simp [handleWrite, hx, hw, hl, hv]

/-- Hearing the line changes the shot table's line state and watchdog alone. -/
theorem heard_line (s : State) : heard .line s = { s with shots := { s.shots with
    lineState := .attended, watchdog := watchdogTime s.shots.watchdogPeriod } } := rfl

@[simp] theorem heard_cams (m : Master) (s : State) : (heard m s).cams = s.cams := by cases m <;> rfl
@[simp] theorem heard_sups (m : Master) (s : State) : (heard m s).sups = s.sups := by cases m <;> rfl
@[simp] theorem heard_dark (m : Master) (s : State) : (heard m s).dark = s.dark := by cases m <;> rfl
@[simp] theorem heard_store (m : Master) (s : State) : (heard m s).store = s.store := by cases m <;> rfl
@[simp] theorem heard_uplink (m : Master) (s : State) : (heard m s).uplink = s.uplink := by cases m <;> rfl
@[simp] theorem heard_recalls (m : Master) (s : State) : (heard m s).recalls = s.recalls := by cases m <;> rfl
@[simp] theorem heard_link (m : Master) (s : State) : (heard m s).link = s.link := by cases m <;> rfl
@[simp] theorem heard_reqs (m : Master) (s : State) : (heard m s).reqs = s.reqs := by cases m <;> rfl
@[simp] theorem heard_events (m : Master) (s : State) : (heard m s).events = s.events := by cases m <;> rfl
@[simp] theorem heard_ctrg (m : Master) (s : State) : (heard m s).ctrg = s.ctrg := by cases m <;> rfl
@[simp] theorem heard_draws (m : Master) (s : State) : (heard m s).draws = s.draws := by cases m <;> rfl
@[simp] theorem heard_pending (m : Master) (s : State) : (heard m s).pending = s.pending := by cases m <;> rfl
@[simp] theorem heard_shots_shots (m : Master) (s : State) : (heard m s).shots.shots = s.shots.shots := by
  cases m <;> rfl
@[simp] theorem heard_shots_next (m : Master) (s : State) : (heard m s).shots.next = s.shots.next := by cases m <;> rfl
@[simp] theorem heard_shots_window (m : Master) (s : State) : (heard m s).shots.window = s.shots.window := by
  cases m <;> rfl
@[simp] theorem heard_cam (m : Master) (s : State) (k : Port) : (heard m s).cam k = s.cam k := by cases m <;> rfl
@[simp] theorem heard_sup (m : Master) (s : State) (k : Port) : (heard m s).sup k = s.sup k := by cases m <;> rfl
@[simp] theorem heard_chan (m : Master) (s : State) (c : Chan) : (heard m s).chan c = s.chan c := by cases m <;> rfl
@[simp] theorem heard_record (m : Master) (s : State) (n : Nat) : (heard m s).record n = s.record n := by
  cases m <;> rfl
@[simp] theorem heard_lookup (m : Master) (s : State) (k : Port) (n : Half) : (heard m s).lookup k n = s.lookup k n := by
  cases m <;> rfl
@[simp] theorem heard_lock (m : Master) (s : State) (l : Fin 13) : (heard m s).lock l = s.lock l := by cases m <;> rfl
@[simp] theorem heard_liveQueue (m : Master) (s : State) (k : Port) : (heard m s).liveQueue k = s.liveQueue k := by
  cases m <;> rfl
@[simp] theorem heard_slot (m : Master) (s : State) (k : Port) : (heard m s).slot k = s.slot k := by cases m <;> rfl

/-- A port byte in range names its port. -/
theorem portOfByte_of_eq {b : Byte} {k : Port} (h : b.toNat = k.val) : portOfByte b = some k := by
  unfold portOfByte; rw [dif_pos (by omega)]; congr 1; exact Fin.ext h

/-- A port byte out of range names none. -/
theorem portOfByte_of_le {b : Byte} (h : 8 ≤ b.toNat) : portOfByte b = none := by
  unfold portOfByte; rw [dif_neg (by omega)]

/-- A name of no port, or with no entry, names no record. -/
theorem named_eq_none {s : State} {port : Byte} {frame : Half}
    (h : 8 ≤ port.toNat ∨ (∃ k : Port, port.toNat = k.val ∧ s.lookup k frame = none)) : s.named port frame = none := by
  unfold State.named
  rcases h with h | ⟨k, h, h'⟩
  · rw [portOfByte_of_le h]
  · rw [portOfByte_of_eq h]; exact h'

/-- A name with an entry names its record. -/
theorem named_eq_some {s : State} {port : Byte} {frame : Half} {k : Port} {n : Nat} (h : port.toNat = k.val)
    (h' : s.lookup k frame = some n) : s.named port frame = some n := by
  unfold State.named; rw [portOfByte_of_eq h]; exact h'

@[simp] theorem heard_named (m : Master) (s : State) (p : Byte) (f : Half) : (heard m s).named p f = s.named p f := by
  cases m <;> rfl

/-- A record number in range names its lockable record. -/
theorem lockableRecord_of_eq {b : Byte} {l : Fin 13} (h : b.toNat = l.val) : lockableRecord b = some l := by
  unfold lockableRecord; rw [dif_pos (by omega)]; congr 1; exact Fin.ext h

/-- A record number out of range names no lockable record. -/
theorem lockableRecord_of_le {b : Byte} (h : 13 ≤ b.toNat) : lockableRecord b = none := by
  unfold lockableRecord; rw [dif_neg (by omega)]

/-- A record whose lock no other master holds is not locked against a write. -/
theorem lockedByOther_of_unbarred {m : Master} {record : Byte} {l : Fin 13} {s : State} (hl : record.toNat = l.val)
    (h : unbarred m l s) : lockedByOther m record s = false := by
  unfold lockedByOther
  rw [lockableRecord_of_eq hl]
  cases hk : s.lock l with
  | none => simp [hk]
  | some e => simp [hk, h e hk]

/-! ### The dark-port detector -/

/-- Visiting ports in turn changes the detector alone, and leaves it at its next visit. -/
theorem visitPorts_eq (ports : List Port) (s : State) : visitPorts ports s = { s with dark := nextVisit ports s } := by
  induction ports generalizing s with
  | nil => simp [visitPorts, nextVisit]
  | cons k rest ih =>
    unfold visitPorts
    cases hm : inMask s.dark.mask k with
    | false => simp [ih, nextVisit, hm]
    | true =>
      cases hu : (s.sup k).state with
      | warmup => simp [nextVisit, hm, hu]
      | run | throttled | unguarded => simp [nextVisit, hm, hu, startDarkTest]
      | disabled | tripped =>
        have hsup : ∀ j, ({ s with dark := { s.dark with current := k } } : State).sup j = s.sup j := fun _ => rfl
        simp only [ih, nextVisit, hsup]
        simp [hm, hu]
        split <;> simp_all [List.getLast?_cons]

end Sys2Proof.Machine
end

