-- ==== Sys2Proof/Laws/Completion.lean ====
section
/-! SUPPORT. What a completion and a stop of reception leave as they stand (sections 1.6 and 1.9). -/

namespace Sys2Proof.Machine

/-- What no completion on port `k` changes. -/
structure CompletionFrame (k : Port) (s t : State) : Prop where
  mem : t.store.mem = s.store.mem
  health : t.store.health = s.store.health
  phase : t.store.phase = s.store.phase
  memSize : t.store.memSize = s.store.memSize
  evictSent : t.store.evictSent = s.store.evictSent
  chans : t.uplink.chans = s.uplink.chans
  lastCredit : t.uplink.lastCredit = s.uplink.lastCredit
  lastSurplus : t.uplink.lastSurplus = s.uplink.lastSurplus
  sent : t.uplink.sent = s.uplink.sent
  recalls : t.recalls = s.recalls
  link : t.link = s.link
  reqs : t.reqs = s.reqs
  ctrg : t.ctrg = s.ctrg
  draws : t.draws = s.draws
  pending : t.pending = s.pending
  globalCounts : t.events.globalCounts = s.events.globalCounts
  maskLine : t.events.maskLine = s.events.maskLine
  maskOffice : t.events.maskOffice = s.events.maskOffice
  lineState : t.shots.lineState = s.shots.lineState
  watchdog : t.shots.watchdog = s.shots.watchdog
  window : t.shots.window = s.shots.window
  next : t.shots.next = s.shots.next
  slots : t.shots.slots = s.shots.slots
  shots : t.shots.shots.length = s.shots.shots.length
  otherCams : ∀ j : Port, j ≠ k → t.cam j = s.cam j
  cam : t.cam k = { s.cam k with lastFlags := (t.cam k).lastFlags }
  otherSups : ∀ j : Port, j ≠ k → t.sup j = s.sup j

theorem CompletionFrame.refl (k : Port) (s : State) : CompletionFrame k s s := by
  constructor <;> first | rfl | intros; rfl

theorem CompletionFrame.trans {k : Port} {s t u : State} (h : CompletionFrame k s t) (g : CompletionFrame k t u) :
    CompletionFrame k s u where
  mem := g.mem.trans h.mem
  health := g.health.trans h.health
  phase := g.phase.trans h.phase
  memSize := g.memSize.trans h.memSize
  evictSent := g.evictSent.trans h.evictSent
  chans := g.chans.trans h.chans
  lastCredit := g.lastCredit.trans h.lastCredit
  lastSurplus := g.lastSurplus.trans h.lastSurplus
  sent := g.sent.trans h.sent
  recalls := g.recalls.trans h.recalls
  link := g.link.trans h.link
  reqs := g.reqs.trans h.reqs
  ctrg := g.ctrg.trans h.ctrg
  draws := g.draws.trans h.draws
  pending := g.pending.trans h.pending
  globalCounts := g.globalCounts.trans h.globalCounts
  maskLine := g.maskLine.trans h.maskLine
  maskOffice := g.maskOffice.trans h.maskOffice
  lineState := g.lineState.trans h.lineState
  watchdog := g.watchdog.trans h.watchdog
  window := g.window.trans h.window
  next := g.next.trans h.next
  slots := g.slots.trans h.slots
  shots := g.shots.trans h.shots
  otherCams j hj := (g.otherCams j hj).trans (h.otherCams j hj)
  cam := by rw [g.cam, h.cam]
  otherSups j hj := (g.otherSups j hj).trans (h.otherSups j hj)

theorem completionFrame_modSup (k : Port) (s : State) (f : Supervisor → Supervisor) :
    CompletionFrame k s (s.modSup k f) := by
  constructor <;> first | rfl | (intro j hj; first | rfl | exact State.sup_modSup_ne s f hj)

theorem completionFrame_setRecord (k : Port) (s : State) (n : Nat) (r : FrameRecord) :
    CompletionFrame k s (s.setRecord n r) := by
  constructor <;> first | rfl | (intros; rfl)

theorem completionFrame_modRecord (k : Port) (s : State) (n : Nat) (f : FrameRecord → FrameRecord) :
    CompletionFrame k s (s.modRecord n f) := completionFrame_setRecord k s n _

theorem completionFrame_count (k : Port) (s : State) (j : Port) (c : PortCount) :
    CompletionFrame k s (s.count j c) := by
  constructor <;> first | rfl | (intros; rfl)

theorem completionFrame_raisePort (k : Port) (s : State) (j : Port) (e : PortEvent) :
    CompletionFrame k s (s.raisePort j e) := by
  constructor <;> first | rfl | (intros; rfl)

theorem completionFrame_setLive (k : Port) (s : State) (j : Port) (q : List Nat) :
    CompletionFrame k s (s.setLive j q) := by
  constructor <;> first | rfl | (intros; rfl)

theorem completionFrame_freeRecord (k : Port) (s : State) (n : Nat) : CompletionFrame k s (freeRecord n s) := by
  constructor <;> first | rfl | (intros; rfl)

theorem completionFrame_dropReference (k : Port) (s : State) (n : Nat) :
    CompletionFrame k s (dropReference n s) := by
  constructor <;> first | rfl | (intros; rfl) | simp [dropReference]

/-- The end of warm-up changes its port's supervisor and the dark-port detector alone. -/
theorem completionFrame_endWarmup (k : Port) (s : State) : CompletionFrame k s (endWarmup k s) := by
  have h : ∀ u : State, CompletionFrame k u (darkWarmupEnded k u) := by
    intro u
    unfold darkWarmupEnded
    split
    · constructor <;> first | rfl | (intros; rfl)
    · exact .refl _ _
  exact (completionFrame_modSup k s _).trans (h _)

theorem completionFrame_warmupCompletion (k : Port) (s : State) : CompletionFrame k s (warmupCompletion k s) := by
  unfold warmupCompletion
  split
  · split
    · exact completionFrame_modSup k s _
    · exact completionFrame_endWarmup k s
  · exact .refl _ _

theorem completionFrame_queueOrHold (k : Port) (n : Nat) (s : State) : CompletionFrame k s (queueOrHold k n s) := by
  unfold queueOrHold
  split
  · exact (completionFrame_setLive k s _ _).trans (completionFrame_modRecord k _ _ _)
  · exact (completionFrame_modRecord k s _ _).trans (completionFrame_count k _ _ _)

/-- What a placement leaves as it stands. -/
theorem completionFrame_placeRecord (k : Port) (n : Nat) (s : State) : CompletionFrame k s (placeRecord k n s) := by
  have clean : CompletionFrame k s (placeClean k n s) := by
    unfold placeClean
    split
    · unfold decimate
      refine CompletionFrame.trans ?_ (completionFrame_modSup k _ _)
      split
      · exact completionFrame_queueOrHold k n s
      · exact (completionFrame_modRecord k s _ _).trans (completionFrame_count k _ _ _)
    · exact completionFrame_queueOrHold k n s
  unfold placeRecord
  split
  · split
    · exact clean
    · exact completionFrame_modRecord k s _ _
    · exact ((completionFrame_freeRecord k s n).trans (completionFrame_dropReference k _ n)).trans
        (completionFrame_count k _ _ _)
  · exact clean

/-- What a completion leaves as it stands. -/
theorem completionFrame_complete (k : Port) (n : Nat) (s : State) : CompletionFrame k s (complete k n s) := by
  unfold complete
  refine CompletionFrame.trans ?_ (completionFrame_placeRecord k n _)
  refine CompletionFrame.trans ?_ (completionFrame_warmupCompletion k _)
  have h1 : CompletionFrame k s ({ s with store := { s.store with ageList := s.store.ageList ++ [n] } }) := by
    constructor <;> first | rfl | (intros; rfl)
  have h2 := h1.trans (completionFrame_count k _ k .framesCompleted)
  have h3 : ∀ u f, CompletionFrame k s u → CompletionFrame k s (u.modCam k fun c => { c with lastFlags := f }) := by
    intro u f hu
    refine hu.trans ?_
    constructor <;> first
      | rfl
      | (intro j hj; first | rfl | exact State.cam_modCam_ne u _ hj)
      | (rw [State.cam_modCam])
  dsimp only
  apply h3
  split
  · exact h2
  · exact (h2.trans (completionFrame_count k _ _ _)).trans (completionFrame_raisePort k _ _ _)

/-- The supervision state after a completion: WARMUP may have ended. -/
theorem sup_complete_of_not_warmup {k : Port} {n : Nat} {s : State} (h : (s.sup k).state ≠ .warmup) :
    (complete k n s).sup k = { s.sup k with decimationCount := ((complete k n s).sup k).decimationCount } := by
  have hw : ∀ u : State, u.sup k = s.sup k → warmupCompletion k u = u := by
    intro u hu; simp [warmupCompletion, hu, h]
  have qh : ∀ u : State, (queueOrHold k n u).sup k = u.sup k := by
    intro u; unfold queueOrHold; split <;> rfl
  have clean : ∀ u : State,
      (placeClean k n u).sup k = { u.sup k with decimationCount := ((placeClean k n u).sup k).decimationCount } := by
    intro u
    unfold placeClean
    split
    · unfold decimate
      dsimp only
      split
      · rw [State.sup_modSup, qh]
      · rw [State.sup_modSup]; rfl
    · rw [qh]
  have place : ∀ u : State,
      (placeRecord k n u).sup k = { u.sup k with decimationCount := ((placeRecord k n u).sup k).decimationCount } := by
    intro u
    unfold placeRecord
    split
    · split
      · exact clean u
      · rfl
      · rfl
    · exact clean u
  have g : ∀ u : State, u.sup k = s.sup k → (placeRecord k n (warmupCompletion k u)).sup k =
      { s.sup k with decimationCount := ((placeRecord k n (warmupCompletion k u)).sup k).decimationCount } := by
    intro u hu
    rw [hw u hu]
    have := place u
    rwa [hu] at this
  unfold complete
  dsimp only
  split <;> exact g _ rfl

/-- A completion outside WARMUP and THROTTLED leaves its port's supervisor as it stands. -/
theorem sup_complete {k : Port} {n : Nat} {s : State} (h : (s.sup k).state ≠ .warmup)
    (h' : (s.sup k).state ≠ .throttled) : (complete k n s).sup k = s.sup k := by
  have hw : ∀ u : State, u.sup k = s.sup k → warmupCompletion k u = u := by
    intro u hu; simp [warmupCompletion, hu, h]
  have qh : ∀ u : State, (queueOrHold k n u).sup k = u.sup k := by
    intro u; unfold queueOrHold; split <;> rfl
  have clean : ∀ u : State, u.sup k = s.sup k → (placeClean k n u).sup k = s.sup k := by
    intro u hu
    unfold placeClean
    rw [if_neg (by rw [hu]; exact fun e => h' e.2), qh, hu]
  have place : ∀ u : State, u.sup k = s.sup k → (placeRecord k n u).sup k = s.sup k := by
    intro u hu
    unfold placeRecord
    split
    · split
      · exact clean u hu
      · exact hu
      · exact hu
    · exact clean u hu
  unfold complete
  dsimp only
  split
  · rw [hw _ (by rfl)]; exact place _ rfl
  · rw [hw _ (by rfl)]; exact place _ rfl

/-- A completion outside WARMUP leaves the dark-port detector as it stands. -/
theorem dark_complete {k : Port} {n : Nat} {s : State} (h : (s.sup k).state ≠ .warmup) :
    (complete k n s).dark = s.dark := by
  have hw : ∀ u : State, u.sup k = s.sup k → warmupCompletion k u = u := by
    intro u hu; simp [warmupCompletion, hu, h]
  have qh : ∀ u : State, (queueOrHold k n u).dark = u.dark := by
    intro u; unfold queueOrHold; split <;> rfl
  have clean : ∀ u : State, (placeClean k n u).dark = u.dark := by
    intro u
    unfold placeClean
    split
    · unfold decimate
      dsimp only
      split
      · exact qh u
      · rfl
    · exact qh u
  have place : ∀ u : State, (placeRecord k n u).dark = u.dark := by
    intro u
    unfold placeRecord
    split
    · split
      · exact clean u
      · rfl
      · rfl
    · exact clean u
  unfold complete
  dsimp only
  split <;> rw [place, hw _ (by rfl)] <;> rfl

/-- A completion counts FRAMES_COMPLETED once. -/
theorem framesCompleted_complete (k : Port) (n : Nat) (s : State) :
    (complete k n s).portCount k .framesCompleted = s.portCount k .framesCompleted + 1 := by
  have cnt : ∀ (u : State) (c : PortCount), c ≠ .framesCompleted →
      (u.count k c).portCount k .framesCompleted = u.portCount k .framesCompleted := by
    intro u c hc
    cases c <;> first | exact absurd rfl hc | simp [State.portCount, State.count, PortCount.idx]
  have q : ∀ u : State, (queueOrHold k n u).portCount k .framesCompleted = u.portCount k .framesCompleted := by
    intro u; unfold queueOrHold
    split
    · rfl
    · exact cnt _ _ (by decide)
  have clean : ∀ u : State, (placeClean k n u).portCount k .framesCompleted = u.portCount k .framesCompleted := by
    intro u
    unfold placeClean
    split
    · unfold decimate
      dsimp only
      split
      · exact q u
      · exact cnt _ _ (by decide)
    · exact q u
  have place : ∀ u : State, (placeRecord k n u).portCount k .framesCompleted = u.portCount k .framesCompleted := by
    intro u
    unfold placeRecord
    split
    · split
      · exact clean u
      · rfl
      · exact cnt _ _ (by decide)
    · exact clean u
  have w : ∀ u : State, (warmupCompletion k u).portCount k .framesCompleted = u.portCount k .framesCompleted := by
    intro u
    unfold warmupCompletion endWarmup darkWarmupEnded startDarkTest
    repeat' split
    all_goals rfl
  have one : ∀ u : State, (u.count k .framesCompleted).portCount k .framesCompleted =
      u.portCount k .framesCompleted + 1 := by
    intro u; simp [State.portCount, State.count]
  unfold complete
  dsimp only
  rw [place, w]
  split
  · exact one _
  · exact (cnt _ _ (by decide)).trans (one _)

/-! ### Reception stopped (R18) -/

/-- What the truncations of a stop leave as they stand. -/
theorem completionFrame_truncations (k : Port) (todo : List Nat) (s : State) :
    CompletionFrame k s (todo.foldl (truncateAndComplete k) s) := by
  induction todo generalizing s with
  | nil => exact .refl k s
  | cons n rest ih =>
    exact ((completionFrame_modRecord k s n _).trans (completionFrame_complete k n _)).trans (ih _)

/-- The truncations of a stop leave the supervisor of a DISABLED or TRIPPED port as it stands. -/
theorem sup_truncations {k : Port} (todo : List Nat) {s : State} (h : (s.sup k).state ≠ .warmup)
    (h' : (s.sup k).state ≠ .throttled) : (todo.foldl (truncateAndComplete k) s).sup k = s.sup k := by
  induction todo generalizing s with
  | nil => rfl
  | cons n rest ih =>
    have e : (truncateAndComplete k s n).sup k = s.sup k := sup_complete (s := s.modRecord n _) h h'
    rw [List.foldl_cons, ih (by rw [e]; exact h) (by rw [e]; exact h'), e]

/-- The truncations of a stop count FRAMES_COMPLETED once each. -/
theorem framesCompleted_truncations (k : Port) (todo : List Nat) (s : State) :
    (todo.foldl (truncateAndComplete k) s).portCount k .framesCompleted =
      s.portCount k .framesCompleted + BitVec.ofNat 32 todo.length := by
  induction todo generalizing s with
  | nil => simp
  | cons n rest ih =>
    have e : (truncateAndComplete k s n).portCount k .framesCompleted = s.portCount k .framesCompleted + 1 :=
      framesCompleted_complete k n (s.modRecord n _)
    rw [List.foldl_cons, ih, e, List.length_cons, BitVec.ofNat_add, BitVec.add_assoc,
      BitVec.add_comm (BitVec.ofNat 32 rest.length)]
    rfl

/-- What a stop of reception on a port that is DISABLED or TRIPPED does and leaves. -/
theorem stopReception_spec {k : Port} {s : State} (h : (s.sup k).state ≠ .warmup) (h' : (s.sup k).state ≠ .throttled) :
    receptionStopped k s (stopReception k s) ∧ (∀ j : Port, (stopReception k s).sup j = s.sup j) ∧
      (stopReception k s).uplink.chans = s.uplink.chans ∧ (stopReception k s).link = s.link ∧
      (stopReception k s).reqs = s.reqs ∧ (stopReception k s).recalls = s.recalls := by
  have c := completionFrame_truncations k ((s.cam k).completion ++ (s.cam k).current.toList)
    (s.modCam k fun c =>
      { c with
        receive := .idle, current := none, expected := 0, linesReceived := 0, bytesAccepted := 0
        staging := [], written := 0, completion := [] })
  refine ⟨⟨?_, ?_, ?_⟩, ?_, c.chans, c.link, c.reqs, c.recalls⟩
  · have := c.cam
    rw [State.cam_modCam] at this
    exact this
  · intro j hj
    exact (c.otherCams j hj).trans (State.cam_modCam_ne s _ hj)
  · refine (framesCompleted_truncations k _ _).trans ?_
    rw [List.length_append]
    rfl
  · intro j
    by_cases hj : j = k
    · subst hj
      exact sup_truncations (s := s.modCam j _) _ h h'
    · exact c.otherSups j hj

/-- A stop of reception on a port that is DISABLED or TRIPPED leaves the dark-port detector as it stands. -/
theorem dark_stopReception {k : Port} {s : State} (h : (s.sup k).state ≠ .warmup) (h' : (s.sup k).state ≠ .throttled) :
    (stopReception k s).dark = s.dark := by
  have fold : ∀ (todo : List Nat) (u : State), u.sup k = s.sup k →
      (todo.foldl (truncateAndComplete k) u).dark = u.dark := by
    intro todo
    induction todo with
    | nil => intro u _; rfl
    | cons n rest ih =>
      intro u hu
      have e : (truncateAndComplete k u n).sup k = u.sup k :=
        sup_complete (s := u.modRecord n _) (by show (u.sup k).state ≠ _; rw [hu]; exact h)
          (by show (u.sup k).state ≠ _; rw [hu]; exact h')
      rw [List.foldl_cons, ih _ (e.trans hu)]
      exact dark_complete (s := u.modRecord n _) (by show (u.sup k).state ≠ _; rw [hu]; exact h)
  exact fold _ (s.modCam k _) rfl

/-- The end of a dark visit changes the detector alone. -/
theorem abandonDarkVisit_eq (k : Port) (s : State) :
    abandonDarkVisit k s = { s with dark := (abandonDarkVisit k s).dark } := by
  unfold abandonDarkVisit nextDarkVisit
  split
  · rw [visitPorts_eq]
  · rfl

/-- The next visit depends on the detector and on the supervision states of the ports looked at, alone. -/
theorem nextVisit_congr {ports : List Port} {s t : State} (hd : t.dark = s.dark)
    (hs : ∀ j ∈ ports, t.sup j = s.sup j) : nextVisit ports t = nextVisit ports s := by
  have hf : ports.find? (fun k => inMask s.dark.mask k &&
        decide ((t.sup k).state ≠ .disabled ∧ (t.sup k).state ≠ .tripped)) =
      ports.find? (fun k => inMask s.dark.mask k &&
        decide ((s.sup k).state ≠ .disabled ∧ (s.sup k).state ≠ .tripped)) := by
    induction ports with
    | nil => rfl
    | cons a l ih =>
      rw [List.find?_cons, List.find?_cons, hs a (List.mem_cons_self ..),
        ih fun j hj => hs j (List.mem_cons_of_mem _ hj)]
  unfold nextVisit
  rw [hd, hf]
  split
  · rfl
  · rename_i k hk
    rw [hs k (List.mem_of_find?_eq_some hk)]

/-- A dark visit of port `k` is abandoned in state `t`, in which `s` differs from it in port `k`'s supervisor at most. -/
theorem visitAbandoned_of_eq {k : Port} {s t : State} (hd : t.dark = s.dark) (hs : ∀ j : Port, j ≠ k → t.sup j = s.sup j) :
    visitAbandoned k s (abandonDarkVisit k t) := by
  unfold visitAbandoned abandonDarkVisit nextDarkVisit
  rw [hd]
  split
  · rw [visitPorts_eq]
    exact nextVisit_congr hd fun j hj => hs j (by
      rintro rfl
      exact absurd (of_decide_eq_true (List.mem_filter.mp hj).2) (lt_irrefl j))
  · exact hd

/-- What TRIPPED entry does and leaves (R76). -/
theorem enterTripped_spec (k : Port) (s : State) : trippedEntry k s (enterTripped k s) := by
  unfold enterTripped
  dsimp only
  generalize hu : State.modChan _ (chanOf k) _ = u
  have us : u.sup k = { s.sup k with
      state := .tripped, overCount := 0, tripDue := false, calmCount := 0, decimationCount := 0
      throttleExit := .none, throttleTimer := none } := by rw [← hu]; simp
  have uo : ∀ j : Port, j ≠ k → u.sup j = s.sup j := by
    intro j hj; rw [← hu, State.sup_modChan, State.sup_modSup_ne _ _ hj]
  have h1 : (u.sup k).state ≠ .warmup := by rw [us]; simp
  have h2 : (u.sup k).state ≠ .throttled := by rw [us]; simp
  obtain ⟨⟨a1, a2, a3⟩, b, c, d, e, f⟩ := stopReception_spec h1 h2
  have dk : (stopReception k u).dark = s.dark := (dark_stopReception h1 h2).trans (by rw [← hu]; rfl)
  have ch : ∀ c, (stopReception k u).chan c = u.chan c := by intro x; unfold State.chan; rw [c]
  have va := visitAbandoned_of_eq (k := k) dk fun j hj => (b j).trans (uo j hj)
  rw [abandonDarkVisit_eq] at va ⊢
  refine ⟨(b k).trans us, fun j hj => (b j).trans (uo j hj), ?_, ?_, ⟨a1.trans ?_, fun j hj => (a2 j hj).trans ?_,
    a3.trans ?_⟩, va, d.trans ?_, e.trans ?_, f.trans ?_⟩
  · exact (ch _).trans (by rw [← hu, State.chan_modChan]; rfl)
  · intro x hx; exact (ch _).trans (by rw [← hu, State.chan_modChan_ne _ _ hx]; rfl)
  all_goals rw [← hu]; rfl

/-- What a disable of port `k` does and leaves (R66). -/
theorem disablePort_spec (k : Port) (s : State) :
    (disablePort k s).sup k = { s.sup k with
      state := .disabled, warmupTimer := none, throttleTimer := none, overCount := 0, tripDue := false
      calmCount := 0, decimationCount := 0, warmupCompletions := 0, blanking := 0, throttleExit := .none } ∧
    (∀ j : Port, j ≠ k → (disablePort k s).sup j = s.sup j) ∧ (∀ c : Chan, (disablePort k s).chan c = s.chan c) ∧
    receptionStopped k s (disablePort k s) ∧ visitAbandoned k s (disablePort k s) ∧
    (disablePort k s).link = s.link ∧ (disablePort k s).reqs = s.reqs ∧ (disablePort k s).recalls = s.recalls := by
  unfold disablePort
  dsimp only
  generalize hu : State.modSup s k _ = u
  have us : u.sup k = { s.sup k with
      state := .disabled, warmupTimer := none, throttleTimer := none, overCount := 0, tripDue := false
      calmCount := 0, decimationCount := 0, warmupCompletions := 0, blanking := 0, throttleExit := .none } := by
    rw [← hu]; simp
  have uo : ∀ j : Port, j ≠ k → u.sup j = s.sup j := by
    intro j hj; rw [← hu, State.sup_modSup_ne _ _ hj]
  have h1 : (u.sup k).state ≠ .warmup := by rw [us]; simp
  have h2 : (u.sup k).state ≠ .throttled := by rw [us]; simp
  obtain ⟨⟨a1, a2, a3⟩, b, c, d, e, f⟩ := stopReception_spec h1 h2
  have dk : (stopReception k u).dark = s.dark := (dark_stopReception h1 h2).trans (by rw [← hu]; rfl)
  have ch : ∀ c, (stopReception k u).chan c = u.chan c := by intro x; unfold State.chan; rw [c]
  have va := visitAbandoned_of_eq (k := k) dk fun j hj => (b j).trans (uo j hj)
  rw [abandonDarkVisit_eq] at va ⊢
  refine ⟨(b k).trans us, fun j hj => (b j).trans (uo j hj), fun c => (ch c).trans ?_,
    ⟨a1.trans ?_, fun j hj => (a2 j hj).trans ?_, a3.trans ?_⟩, va, d.trans ?_, e.trans ?_, f.trans ?_⟩
  all_goals rw [← hu]; rfl

end Sys2Proof.Machine
end

