-- ==== Sys2Proof/Laws/Settings.lean ====
section
/-! SUPPORT. Settings writes said once: the fields behind the rows that write one field, and what a write of a field of a
channel or of MONITOR comes to. -/

namespace Sys2Proof.Machine

/-- A field narrower than a word is read as the number it holds. -/
theorem setWidth_eq_wordOf {w : Nat} (v : BitVec w) : v.setWidth 32 = wordOf v.toNat := by
  apply BitVec.eq_of_toNat_eq; simp [wordOf]

theorem resolveField_enable (k : Port) : resolveField (byteOf (chanOf k).val) 0x01 = .ok (.setting (.port k .enable)) := by
  revert k; decide

theorem resolveField_warmupArmed (k : Port) :
    resolveField (byteOf (chanOf k).val) 0x02 = .ok (.setting (.port k .warmupArmed)) := by
  revert k; decide

theorem resolveField_tripThreshold (k : Port) :
    resolveField (byteOf (chanOf k).val) 0x04 = .ok (.setting (.port k .tripThreshold)) := by
  revert k; decide

theorem resolveField_target (c : Chan) : resolveField (byteOf c.val) 0x10 = .ok (.setting (.chan c .target)) := by
  revert c; decide

theorem resolveField_ceiling (c : Chan) : resolveField (byteOf c.val) 0x12 = .ok (.setting (.chan c .ceiling)) := by
  revert c; decide

theorem resolveField_slewCode (c : Chan) : resolveField (byteOf c.val) 0x13 = .ok (.setting (.chan c .slewCode)) := by
  revert c; decide

theorem resolveField_mask (w : Master) (f : Fin 9) :
    resolveField (maskRecordNumber w) (byteOf (f.val + 1)) = .ok (.setting (.mask w f)) := by
  revert f; cases w <;> decide

/-- Channel records are numbered as the channels are. -/
theorem toNat_byteOf_chan (c : Chan) : (byteOf c.val).toNat = (chanRecord c).val := by
  revert c; decide

/-- A write of a lockable record's setting that the other master's lock does not bar: refused by the value, or taken. -/
theorem arrive_write_of_unbarred {m : Master} {s : State} {l : Fin 13} {record field : Byte} (ref : Half) (v : Word)
    {x : Setting} (ht : takable m s) (hl : record.toNat = l.val) (hu : unbarred m l s)
    (hx : resolveField record field = .ok (.setting x)) :
    arrive m ref (.write record field v) s =
      match valueRefused x v (heard m s) with
      | some r => answered m (refusedAnswer 0x02 ref r) (heard m s)
      | none => answered m (doneAnswer 0x02 ref (be32 (readSetting (writeSetting x v (heard m s)) x)))
          (writeSetting x v (heard m s)) := by
  have hk : lockedByOther m record (heard m s) = false :=
    lockedByOther_of_unbarred hl (by intro e he; rw [heard_lock] at he; exact hu e he)
  have hw : wrongMask m record = false := by
    unfold wrongMask maskRecord
    have := l.isLt
    split
    · rfl
    · rename_i h; split at h <;> first | omega | simp at h
  rw [arrive_of_takable ht _ rfl]
  simp only [handle, handleWrite, hx, hw, hk]
  cases valueRefused x v (heard m s) <;> rfl

/-- The tests of a value of an enumeration setting. -/
theorem valueRefused_enum {x : Setting} {n : Nat} (hx : x.enumSize = some n) (s : State)
    (ht : targetBarred x s = false) (v : Word) :
    valueRefused x v s = if n ≤ v.toNat then some .badValue else none := by
  simp [valueRefused, Setting.badValue, hx, ht]

/-! ### The tests before a write -/

/-- The camera channel of a port has it as its port. -/
theorem portOf_chanOf (k : Port) : portOf (chanOf k) = some k := by revert k; decide

/-- A channel is a port's or channel 8. -/
theorem chan_cases (c : Chan) : (∃ k : Port, c = chanOf k ∧ portOf c = some k) ∨ (c = 8 ∧ portOf c = none) := by
  revert c; decide

/-- A record number that no record has. -/
theorem resolveField_of_le {record field : Byte} (h : 15 ≤ record.toNat) :
    resolveField record field = .error .noSuchRecord := by
  unfold resolveField
  rw [lockableRecord_of_le (by omega)]
  have : maskRecord record = none := by unfold maskRecord; split <;> first | omega | rfl
  rw [this]

/-- A field number that its record does not have. -/
theorem resolveField_of_lt {record field : Byte} (h : record.toNat < 15) (hf : ∀ f, resolveField record field ≠ .ok f) :
    resolveField record field = .error .noSuchField := by
  cases hx : resolveField record field with
  | ok f => exact absurd hx (hf f)
  | error r =>
    unfold resolveField at hx
    split at hx
    · split at hx <;> simp at hx; rw [← hx]
    · split at hx <;> simp at hx; rw [← hx]
    · rename_i h1 h2
      exfalso
      have : record.toNat = 13 ∨ record.toNat = 14 := by
        by_contra hc
        have : record.toNat < 13 := by omega
        rw [lockableRecord_of_eq (l := ⟨record.toNat, this⟩) rfl] at h1; simp at h1
      unfold maskRecord at h2; rcases this with h | h <;> rw [h] at h2 <;> simp at h2

/-- The writes that step 7 of R146 refuses: a target, on the channel of a TRIPPED port. -/
theorem targetBarred_iff (x : Setting) (s : State) :
    targetBarred x s = true ↔ ∃ k : Port, x = .chan (chanOf k) .target ∧ (s.sup k).state = .tripped := by
  unfold targetBarred
  split
  · rename_i c
    rcases chan_cases c with ⟨k, rfl, hk⟩ | ⟨rfl, hk⟩
    · rw [hk]; simp
      constructor
      · intro h; exact ⟨k, rfl, h⟩
      · rintro ⟨j, h1, h2⟩; rw [show k = j from Fin.castSucc_inj.mp h1]; exact h2
    · rw [hk]; simp; intro j h; exact absurd h (by revert j; decide)
  · rename_i h; simp; rintro k rfl; exact absurd rfl (h _)

/-- A mask record written by the master it does not serve. -/
theorem wrongMask_iff (m : Master) (record : Byte) :
    wrongMask m record = true ↔ (record = 0x0D ∧ m = .office) ∨ (record = 0x0E ∧ m = .line) := by
  have e : ∀ n : Nat, n < 256 → (record = BitVec.ofNat 8 n ↔ record.toNat = n) := by
    intro n hn
    constructor
    · intro h; rw [h]; simp; omega
    · intro h; apply BitVec.eq_of_toNat_eq; simp [h]; omega
  have e1 := e 13 (by omega)
  have e2 := e 14 (by omega)
  simp only [BitVec.ofNat_eq_ofNat] at e1 e2 ⊢
  rw [e1, e2]
  unfold wrongMask maskRecord
  split
  · rename_i h; split at h <;> simp_all
  · rename_i w h; split at h <;> simp_all
    all_goals (subst h; cases m <;> simp)

/-- A record that the other master has locked. -/
theorem lockedByOther_iff (m : Master) (record : Byte) (s : State) :
    lockedByOther m record s = true ↔
      ∃ (l : Fin 13) (e : Lock), record.toNat = l.val ∧ s.lock l = some e ∧ e.holder ≠ m := by
  unfold lockedByOther
  by_cases h : record.toNat < 13
  · rw [lockableRecord_of_eq (l := ⟨record.toNat, h⟩) rfl]
    dsimp only
    rw [Option.any_eq_true]
    constructor
    · rintro ⟨e, h1, h2⟩; exact ⟨_, e, rfl, h1, by simpa using h2⟩
    · rintro ⟨l, e, h1, h2, h3⟩
      have : l = ⟨record.toNat, h⟩ := Fin.ext h1.symm
      subst this; exact ⟨e, h2, by simpa using h3⟩
  · rw [lockableRecord_of_le (by omega)]; simp; intro l h'; omega

/-- A lock that its master holds. -/
theorem lockHeldBy_iff (m : Master) (l : Fin 13) (s : State) :
    lockHeldBy m l s = true ↔ ∃ e, s.lock l = some e ∧ e.holder = m := by
  unfold lockHeldBy; rw [Option.any_eq_true]; simp

end Sys2Proof.Machine
end

