-- ==== Sys2Proof/Laws/Scheduler.lean ====
section
/-! SUPPORT. What reading and sending a cell does and leaves (sections 5.5 to 5.8, 3.4), and the arbiter's order. -/

namespace Sys2Proof.Machine

/-- What reading frame bytes never changes. -/
structure ReadFrame (s t : State) : Prop where
  cams : t.cams = s.cams
  sups : t.sups = s.sups
  dark : t.dark = s.dark
  shots : t.shots = s.shots
  uplink : t.uplink = s.uplink
  recalls : t.recalls = s.recalls
  link : t.link = s.link
  reqs : t.reqs = s.reqs
  ctrg : t.ctrg = s.ctrg
  pending : t.pending = s.pending
  phase : t.store.phase = s.store.phase
  memSize : t.store.memSize = s.store.memSize
  evictSent : t.store.evictSent = s.store.evictSent
  freePages : t.store.freePages = s.store.freePages
  freeRecords : t.store.freeRecords = s.store.freeRecords
  ageList : t.store.ageList = s.store.ageList
  lookup : t.store.lookup = s.store.lookup
  mem : t.store.mem = s.store.mem
  health : t.store.health = s.store.health
  portCounts : t.events.portCounts = s.events.portCounts
  maskLine : t.events.maskLine = s.events.maskLine
  maskOffice : t.events.maskOffice = s.events.maskOffice
  wf : Table.wf FrameRecord.blank s.store.catalogue → Table.wf FrameRecord.blank t.store.catalogue

theorem ReadFrame.refl (s : State) : ReadFrame s s := by
  constructor <;> first | rfl | exact id

theorem ReadFrame.trans {s t u : State} (h : ReadFrame s t) (g : ReadFrame t u) : ReadFrame s u where
  cams := g.cams.trans h.cams
  sups := g.sups.trans h.sups
  dark := g.dark.trans h.dark
  shots := g.shots.trans h.shots
  uplink := g.uplink.trans h.uplink
  recalls := g.recalls.trans h.recalls
  link := g.link.trans h.link
  reqs := g.reqs.trans h.reqs
  ctrg := g.ctrg.trans h.ctrg
  pending := g.pending.trans h.pending
  phase := g.phase.trans h.phase
  memSize := g.memSize.trans h.memSize
  evictSent := g.evictSent.trans h.evictSent
  freePages := g.freePages.trans h.freePages
  freeRecords := g.freeRecords.trans h.freeRecords
  ageList := g.ageList.trans h.ageList
  lookup := g.lookup.trans h.lookup
  mem := g.mem.trans h.mem
  health := g.health.trans h.health
  portCounts := g.portCounts.trans h.portCounts
  maskLine := g.maskLine.trans h.maskLine
  maskOffice := g.maskOffice.trans h.maskOffice
  wf w := g.wf (h.wf w)

theorem readFrame_readBlock (n lo hi : Nat) (s : State) : ReadFrame s (readBlock n lo hi s).2.2 := by
  unfold readBlock
  dsimp only
  split
  · exact .refl s
  · constructor <;> first | rfl | exact id
  · constructor <;> first | rfl | exact fun w => Table.wf_set w _ _

theorem readFrame_readBlocks (n fuel lo hi : Nat) (s : State) : ReadFrame s (readBlocks n fuel lo hi s).2.2 := by
  induction fuel generalizing lo s with
  | zero => exact .refl s
  | succ fuel ih =>
    unfold readBlocks
    split
    · exact .refl s
    · exact (readFrame_readBlock n lo _ s).trans (ih _ _)

/-- What reading a cell leaves as it stands. -/
theorem readFrame_readCell (n i : Nat) (s : State) : ReadFrame s (readCell n i s).2.2 :=
  readFrame_readBlocks n 10 _ _ s

theorem ascending_append (a m n : Nat) : ascending a m ++ ascending (a + m) n = ascending a (m + n) := by
  induction m generalizing a with
  | zero => simp [ascending]
  | succ m ih =>
    have : m + 1 + n = (m + n) + 1 := by omega
    rw [this]
    simp only [ascending, List.cons_append]
    rw [← ih (a + 1), show a + 1 + m = a + (m + 1) by omega]

/-- Frame bytes in two pieces. -/
theorem frameBytes_append (s : State) (r : FrameRecord) {a b c : Nat} (h : a ≤ b) (g : b ≤ c) :
    frameBytes s r a b ++ frameBytes s r b c = frameBytes s r a c := by
  unfold frameBytes
  rw [← List.map_append]
  have h1 := ascending_append a (b - a) (c - b)
  rw [show a + (b - a) = b by omega, show b - a + (c - b) = c - a by omega] at h1
  rw [h1]

/-- Reading sound blocks hands over the frame bytes and changes nothing. -/
theorem readBlocks_sound {n : Nat} {s : State} {hi : Nat} (fuel lo : Nat) (hf : hi ≤ lo ∨ hi ≤ (lo / 64 + fuel) * 64)
    (hs : bytesSound s (s.record n) lo hi) :
    readBlocks n fuel lo hi s = (frameBytes s (s.record n) lo hi, false, s) := by
  induction fuel generalizing lo with
  | zero =>
    have : hi ≤ lo := by omega
    simp [readBlocks, frameBytes, ascending, show hi - lo = 0 by omega]
  | succ fuel ih =>
    unfold readBlocks
    by_cases hh : hi ≤ lo
    · rw [if_pos hh]; simp [frameBytes, ascending, show hi - lo = 0 by omega]
    · rw [if_neg hh]
      have hb : readBlock n lo (min hi ((lo / Config.blockBytes + 1) * Config.blockBytes)) s =
          (frameBytes s (s.record n) lo (min hi ((lo / 64 + 1) * 64)), false, s) := by
        unfold readBlock
        have : s.blockHealth (frameAddress (s.record n).chain lo / Config.blockBytes) = .sound :=
          hs lo (Nat.le_refl lo) (by omega)
        simp only [this]
      dsimp only
      rw [hb]
      dsimp only
      have hmid : lo ≤ min hi ((lo / 64 + 1) * 64) := by omega
      rw [show min hi ((lo / Config.blockBytes + 1) * Config.blockBytes) = min hi ((lo / 64 + 1) * 64) from rfl,
        ih (min hi ((lo / 64 + 1) * 64)) (by omega) (fun b h1 h2 => hs b (by omega) h2)]
      dsimp only
      rw [frameBytes_append s _ hmid (by omega)]
      rfl

/-- Reading a cell no block of which is in error. -/
theorem readCell_sound {n i : Nat} {s : State}
    (hs : bytesSound s (s.record n) (cellRange (s.record n) i).1 (cellRange (s.record n) i).2) :
    readCell n i s = ((if i = 0 then descriptor (s.record n) else []) ++
      frameBytes s (s.record n) (cellRange (s.record n) i).1 (cellRange (s.record n) i).2, false, s) := by
  unfold readCell
  dsimp only
  rw [readBlocks_sound 10 (cellRange (s.record n) i).1 (.inr _) hs]
  unfold cellRange
  split <;> dsimp only <;> omega

/-! ### The arbiter's order -/

/-- A channel's place in the cyclic order that starts after `last`. -/
theorem cyclicAfter_sorted (last : Chan) :
    (cyclicAfter last).Pairwise (fun a b => turnAfter last a < turnAfter last b) ∧ ∀ c, c ∈ cyclicAfter last := by
  revert last; decide

/-- The first channel in the cyclic order that passes a test is the one whose turn comes first. -/
theorem cyclicAfter_find? {last c : Chan} {p : Chan → Bool} (hc : p c = true)
    (hmin : ∀ b, p b = true → turnAfter last c ≤ turnAfter last b) : (cyclicAfter last).find? p = some c := by
  obtain ⟨hs, hm⟩ := cyclicAfter_sorted last
  generalize cyclicAfter last = l at hs hm
  have hcl := hm c
  clear hm
  induction l with
  | nil => simp at hcl
  | cons a l ih =>
    have hp := List.pairwise_cons.mp hs
    by_cases ha : p a = true
    · rcases List.mem_cons.mp hcl with rfl | h
      · simp [hc]
      · have := hp.1 c h
        have := hmin a ha
        omega
    · rcases List.mem_cons.mp hcl with rfl | h
      · exact absurd hc ha
      · rw [List.find?_cons_of_neg ha]; exact ih hp.2 h

/-- A channel is a candidate for a cell exactly when it has one ready. -/
theorem cellReady_iff (s : State) (c : Chan) : cellReady s c = true ↔ hasCell s c := by
  unfold cellReady hasCell
  rcases chan_cases c with ⟨k, rfl, hk⟩ | ⟨rfl, hk⟩
  · rw [hk]
    have h8 : ∀ j : Port, chanOf j ≠ 8 := by decide
    have inj : ∀ j : Port, chanOf k = chanOf j → j = k := by
      intro j h; exact (Fin.castSucc_inj.mp h).symm
    simp only [Bool.and_eq_true, decide_eq_true_eq, h8 k, false_and, or_false]
    constructor
    · rintro ⟨h1, h2⟩; exact ⟨h1, k, rfl, h2⟩
    · rintro ⟨h1, j, hj, h2⟩; rw [inj j hj] at h2; exact ⟨h1, h2⟩
  · rw [hk]
    have h8 : ∀ j : Port, (8 : Chan) ≠ chanOf j := by decide
    simp only [Bool.and_eq_true, decide_eq_true_eq, true_and]
    constructor
    · rintro ⟨h1, h2⟩; exact ⟨h1, .inr h2⟩
    · rintro ⟨h1, ⟨j, hj, _⟩ | h2⟩
      · exact absurd hj (h8 j)
      · exact ⟨h1, h2⟩

/-! ### Grants -/

/-- Memory errors change the block health table alone. -/
theorem foldl_spoilBlock (errors : List MemError) (s : State) :
    ∃ h, errors.foldl spoilBlock s = { s with store := { s.store with health := h } } := by
  induction errors generalizing s with
  | nil => exact ⟨s.store.health, rfl⟩
  | cons e l ih =>
    have : ∃ h, spoilBlock s e = { s with store := { s.store with health := h } } := by
      unfold spoilBlock; split
      · exact ⟨s.store.health, rfl⟩
      · exact ⟨_, rfl⟩
    obtain ⟨h, hh⟩ := this
    obtain ⟨h', hh'⟩ := ih (spoilBlock s e)
    exact ⟨h', by rw [List.foldl_cons, hh', hh]⟩

/-- What no grant changes of the uplink: whose turn it is, and every channel's credit. -/
structure GrantFrame (s t : State) : Prop where
  lastCredit : t.uplink.lastCredit = s.uplink.lastCredit
  lastSurplus : t.uplink.lastSurplus = s.uplink.lastSurplus
  credit : ∀ b, (t.chan b).credit = (s.chan b).credit

theorem GrantFrame.refl (s : State) : GrantFrame s s := ⟨rfl, rfl, fun _ => rfl⟩

theorem GrantFrame.trans {s t u : State} (h : GrantFrame s t) (g : GrantFrame t u) : GrantFrame s u :=
  ⟨g.lastCredit.trans h.lastCredit, g.lastSurplus.trans h.lastSurplus, fun b => (g.credit b).trans (h.credit b)⟩

theorem GrantFrame.of_uplink {s t : State} (h : t.uplink = s.uplink) : GrantFrame s t :=
  ⟨by rw [h], by rw [h], fun b => by unfold State.chan; rw [h]⟩

theorem GrantFrame.of_modRecord (s : State) (n : Nat) (f : FrameRecord → FrameRecord) :
    GrantFrame s (s.modRecord n f) := .of_uplink rfl

theorem GrantFrame.of_current (s : State) (c : Chan) (x : Option Nat) :
    GrantFrame s (s.modChan c fun h => { h with current := x }) :=
  ⟨rfl, rfl, fun b => by
    by_cases h : b = c
    · subst h; simp
    · rw [State.chan_modChan_ne _ _ h]⟩

theorem GrantFrame.of_setLive (s : State) (k : Port) (q : List Nat) : GrantFrame s (s.setLive k q) :=
  ⟨rfl, rfl, fun _ => rfl⟩

theorem grantFrame_sendNext (c : Chan) (n : Nat) (s : State) : GrantFrame s (sendNext c n s) := by
  unfold sendNext
  exact .trans (.of_uplink (readFrame_readCell n _ s).uplink) ⟨rfl, rfl, fun _ => rfl⟩

theorem grantFrame_endRecall (n : Nat) (s : State) : GrantFrame s (endRecall n s) := by
  unfold endRecall; split
  · exact .refl _
  · exact .trans (t := State.modRecord { s with recalls := { s.recalls with queue := s.recalls.queue.tail } } n _)
      (.of_uplink rfl) (.of_current _ _ _)

/-- What a grant leaves of the uplink. -/
theorem grantFrame_grant (c : Chan) (s : State) : GrantFrame s (grant c s) := by
  unfold grant
  split
  · rename_i k _
    unfold grantLive
    split
    · exact .refl s
    · rename_i n q _
      have h1 : GrantFrame s (beginSend k n s) := by
        unfold beginSend; split
        · exact .refl s
        · exact (GrantFrame.of_modRecord s n _).trans (.of_current _ _ _)
      have h2 := (h1.trans (grantFrame_sendNext (chanOf k) n _)).trans
        (.of_uplink (t := (sendNext (chanOf k) n (beginSend k n s)).count k .cellsLive) rfl)
      refine h2.trans ?_
      unfold endSend; split
      · exact .refl _
      · exact (GrantFrame.trans (.of_modRecord _ n _) (.of_setLive _ _ _)).trans (.of_current _ _ _)
  · unfold grantRecall
    split
    · exact .refl s
    · rename_i e q _
      have h1 : GrantFrame s (beginRecall e s) := by
        unfold beginRecall; split
        · exact .refl s
        · refine (GrantFrame.of_uplink (t := State.modRecord (setHeadStarted true s) _ _) ?_).trans (.of_current _ _ _)
          unfold setHeadStarted; split <;> rfl
      have h2 := (h1.trans (grantFrame_sendNext recallChan e.record _)).trans
        (.of_uplink (t := (sendNext recallChan e.record (beginRecall e s)).countGlobal .cellsRecall 1) rfl)
      exact h2.trans (grantFrame_endRecall _ _)

/-- What undoing one port's live send does. -/
theorem undoLive_spec (k : Port) {s : State} (h : Table.wf FrameRecord.blank s.store.catalogue) :
    Table.wf FrameRecord.blank (undoLive k s).store.catalogue ∧
      undoLive k s = { s with
        store := { s.store with catalogue := (undoLive k s).store.catalogue }
        uplink := { s.uplink with chans := (undoLive k s).uplink.chans } } ∧
      GrantFrame s (undoLive k s) ∧
      (∀ n, (undoLive k s).record n =
        if (s.liveQueue k).head? = some n ∧ (s.record n).state = .sending then (s.record n).undone else s.record n) ∧
      (∀ n, (s.liveQueue k).head? = some n → (s.record n).state = .sending →
        (undoLive k s).chan (chanOf k) = { s.chan (chanOf k) with current := none }) ∧
      (¬(∃ n, (s.liveQueue k).head? = some n ∧ (s.record n).state = .sending) → undoLive k s = s) ∧
      ∀ c, c ≠ chanOf k → (undoLive k s).chan c = s.chan c := by
  unfold undoLive
  split
  · rename_i hq; exact ⟨h, rfl, .refl s, by simp [hq], by simp [hq], fun _ => rfl, fun _ _ => rfl⟩
  · rename_i n q hq
    split
    · rename_i hs
      refine ⟨Table.wf_set h _ _, rfl, (GrantFrame.of_modRecord s n _).trans (.of_current _ _ _), ?_, ?_,
        fun hx => absurd ⟨n, by rw [hq]; rfl, hs⟩ hx, ?_⟩
      · intro m
        rw [State.record_modChan, State.modRecord_eq]
        by_cases hm : m = n
        · subst hm; rw [State.record_setRecord h]; simp [hq, hs, FrameRecord.undone]
        · rw [State.record_setRecord_other h hm, if_neg]; rw [hq]; simp; exact fun e => absurd e.symm hm
      · intro m _ _; rw [State.chan_modChan]; rfl
      · intro c hc; rw [State.chan_modChan_ne _ _ hc]; rfl
    · rename_i hs
      refine ⟨h, rfl, .refl s, ?_, ?_, fun _ => rfl, fun _ _ => rfl⟩
      · intro m; rw [if_neg]; rw [hq]; simp; rintro rfl; exact hs
      · intro m; rw [hq]; simp; rintro rfl h; exact absurd h hs

end Sys2Proof.Machine
end

