-- ==== Sys2Proof/Laws/Flags.lean ====
section
/-! SUPPORT. Sets of event flags: membership after an insertion, after a removal, and when a set is empty (section 9.1). -/

namespace Sys2Proof.Machine

theorem GlobalEvent.bit_lt (g : GlobalEvent) : g.bit < 10 := by cases g <;> decide

theorem PortEvent.bit_lt (p : PortEvent) : p.bit < 7 := by cases p <;> decide

theorem getLsbD_globalBit (g h : GlobalEvent) :
    (BitVec.ofNat 10 (1 <<< g.bit)).getLsbD h.bit = decide (h = g) := by
  cases g <;> cases h <;> decide

theorem getLsbD_portBit (p q : PortEvent) : (BitVec.ofNat 7 (1 <<< p.bit)).getLsbD q.bit = decide (q = p) := by
  cases p <;> cases q <;> decide

/-- The flags of a set with one more flag. -/
theorem FlagSet.has_insert (f : FlagSet) (e d : Event) : (f.insert e).has d = (f.has d || decide (d = e)) := by
  cases e with
  | global g =>
    cases d with
    | global h =>
      simp only [FlagSet.insert, FlagSet.has, BitVec.getLsbD_or]
      congr 1
      refine (getLsbD_globalBit g h).trans (decide_eq_decide.mpr ?_)
      constructor
      · rintro rfl; rfl
      · intro e; exact Event.global.inj e
    | port p k => simp [FlagSet.insert, FlagSet.has]
  | port p k =>
    cases d with
    | global h => simp [FlagSet.insert, FlagSet.has]
    | port q j =>
      simp only [FlagSet.insert, FlagSet.has]
      by_cases hj : j = k
      · subst hj
        simp only [Fin.getElem_fin, Vector.getElem_set_self, BitVec.getLsbD_or]
        congr 1
        refine (getLsbD_portBit p q).trans (decide_eq_decide.mpr ?_)
        constructor
        · rintro rfl; rfl
        · intro e; exact (Event.port.inj e).1
      · have : k.val ≠ j.val := fun e => hj (Fin.ext e.symm)
        simp [this, hj]

/-- The flags of a set with some taken out. -/
theorem FlagSet.has_without (f g : FlagSet) (d : Event) : (f.without g).has d = (f.has d && !g.has d) := by
  cases d with
  | global h => simp [FlagSet.without, FlagSet.has, GlobalEvent.bit_lt]
  | port p k => simp [FlagSet.without, FlagSet.has, PortEvent.bit_lt]

/-- Every bit of the global set is a flag's. -/
theorem GlobalEvent.exists_bit (i : Fin 10) : ∃ g : GlobalEvent, g.bit = i.val :=
  match i with
  | 0 => ⟨.linkUp, rfl⟩
  | 1 => ⟨.linkDown, rfl⟩
  | 2 => ⟨.linkHalted, rfl⟩
  | 3 => ⟨.lineSilent, rfl⟩
  | 4 => ⟨.shotOverflow, rfl⟩
  | 5 => ⟨.verdictLate, rfl⟩
  | 6 => ⟨.answerLost, rfl⟩
  | 7 => ⟨.officeReqDropped, rfl⟩
  | 8 => ⟨.storeEcc, rfl⟩
  | 9 => ⟨.storeFlushed, rfl⟩

/-- Every bit of a port's set is a flag's. -/
theorem PortEvent.exists_bit (i : Fin 7) : ∃ p : PortEvent, p.bit = i.val :=
  match i with
  | 0 => ⟨.trip, rfl⟩
  | 1 => ⟨.throttleTimeout, rfl⟩
  | 2 => ⟨.warmupTimeout, rfl⟩
  | 3 => ⟨.dark, rfl⟩
  | 4 => ⟨.laneError, rfl⟩
  | 5 => ⟨.storeRefused, rfl⟩
  | 6 => ⟨.triggerMissed, rfl⟩

theorem mem_allPorts (k : Port) : k ∈ allPorts := by revert k; decide

/-- A set is not empty exactly when it has a flag. -/
theorem FlagSet.nonempty_iff (f : FlagSet) : f.nonempty = true ↔ ∃ e, f.has e = true := by
  unfold FlagSet.nonempty
  constructor
  · intro h
    simp only [Bool.or_eq_true, decide_eq_true_eq] at h
    rcases h with h | h
    · by_contra hn
      push Not at hn
      apply h
      apply BitVec.eq_of_getLsbD_eq
      intro i hi
      obtain ⟨g, hg⟩ := GlobalEvent.exists_bit ⟨i, hi⟩
      have := hn (.global g)
      simp only [FlagSet.has, hg] at this
      simpa using this
    · simp only [List.any_eq_true, decide_eq_true_eq] at h
      obtain ⟨k, _, hk⟩ := h
      by_contra hn
      push Not at hn
      apply hk
      apply BitVec.eq_of_getLsbD_eq
      intro i hi
      obtain ⟨g, hg⟩ := PortEvent.exists_bit ⟨i, hi⟩
      have := hn (.port g k)
      simp only [FlagSet.has, hg] at this
      simpa using this
  · rintro ⟨e, he⟩
    simp only [Bool.or_eq_true, decide_eq_true_eq, List.any_eq_true]
    cases e with
    | global g => left; intro h; simp [FlagSet.has, h] at he
    | port p k =>
      right
      refine ⟨k, mem_allPorts k, ?_⟩
      intro h
      simp only [FlagSet.has] at he
      rw [h] at he
      simp at he

end Sys2Proof.Machine
end

