-- ==== Sys2Proof/Laws/Budgets.lean ====
section
/-! SUPPORT. What each operation on one channel and on one supervisor keeps of the ranges that R65 and R88 give. -/

namespace Sys2Proof.Machine

/-! ### One channel (R88) -/

section
variable {g : Grade} {c : Channel}

/-- The step period of a slew code other than 0 is at least 1. -/
theorem one_le_slewPeriod {code : Fin 8} (h : code ≠ 0) : 1 ≤ slewPeriod code := by
  unfold slewPeriod
  rw [if_neg h]
  exact Nat.one_le_two_pow

/-- The slew step that statements name is the one the scheduler takes. -/
theorem Channel.slewed_eq (c : Channel) : slewed c = c.stepIfDue := by
  have h : c.stepSize = slewStepSize c := by
    unfold Channel.stepSize slewStepSize Channel.distance
    dsimp only
    rw [show max (c.target - c.rate) (c.rate - c.target) =
      if c.rate ≤ c.target then c.target - c.rate else c.rate - c.target by split <;> omega, Nat.min_comm]
  simp [slewed, Channel.stepIfDue, Channel.step, h]

/-- Once taken, no slew step is due. -/
theorem Channel.stepDue_stepIfDue (c : Channel) : c.stepIfDue.stepDue = false := by
  unfold Channel.stepIfDue
  split
  · rfl
  · simp_all

/-- A slew step ends between the rate and the target. -/
theorem Channel.step_between (c : Channel) :
    (c.rate ≤ c.target → c.rate ≤ c.step.rate ∧ c.step.rate ≤ c.target) ∧
      (c.target ≤ c.rate → c.target ≤ c.step.rate ∧ c.step.rate ≤ c.rate) := by
  have hs : c.stepSize ≤ c.distance := by unfold Channel.stepSize; exact Nat.min_le_right _ _
  unfold Channel.distance at hs
  unfold Channel.step
  dsimp only
  split <;> omega

theorem Channel.budgetOk_refill (h : c.budgetOk g) : c.refill.budgetOk g := by
  obtain ⟨_, h1⟩ := h
  refine ⟨?_, h1⟩
  exact Nat.min_le_right _ _

theorem Channel.budgetOk_countSlew (h : c.budgetOk g) : c.countSlew.budgetOk g := by
  obtain ⟨h1, h2, h3, h4, h5, h6, h7, h8, h9, h10⟩ := h
  unfold Channel.countSlew
  split
  · exact ⟨h1, h2, h3, h4, h5, h6, h7, h8, h9, h10⟩
  · rename_i hc
    have hc0 : c.slewCode ≠ 0 := fun e => hc (.inl e)
    split
    · exact ⟨h1, h2, h3, h4, h5, h6, h7, h8, fun e => absurd e hc0, fun _ => ⟨one_le_slewPeriod hc0, Nat.le_refl _⟩⟩
    · obtain ⟨a, b⟩ := h10 hc0
      refine ⟨h1, h2, h3, h4, h5, h6, h7, h8, fun e => absurd e hc0, fun _ => ⟨?_, ?_⟩⟩ <;> dsimp only <;> omega

theorem Channel.budgetOk_stepIfDue (h : c.budgetOk g) : c.stepIfDue.budgetOk g := by
  obtain ⟨h1, h2, h3, h4, h5, h6, h7, h8, h9, h10⟩ := h
  unfold Channel.stepIfDue
  split
  · obtain ⟨up, down⟩ := c.step_between
    refine ⟨h1, h2, h3, h4, h5, h6, ?_, ?_, ?_, h10⟩
    · show c.step.rate ≤ _
      rcases Nat.le_total c.rate c.target with h | h
      · exact Nat.le_trans (up h).2 h5
      · exact Nat.le_trans (down h).2 h7
    · intro ht
      show c.step.rate = 0
      have := h8 ht
      have hd := (down (by rw [show c.target = 0 from ht]; exact Nat.zero_le _)).2
      omega
    · intro hc
      obtain ⟨a, b⟩ := h9 hc
      refine ⟨?_, b⟩
      show c.step.rate = c.target
      have := (up (by omega))
      omega
  · exact ⟨h1, h2, h3, h4, h5, h6, h7, h8, h9, h10⟩

theorem Channel.budgetOk_writeTarget (h : c.budgetOk g) {t : Nat} (ht : t ≤ gradeMaximum g) :
    (c.writeTarget t).budgetOk g := by
  obtain ⟨h1, h2, h3, h4, h5, h6, h7, h8, h9, h10⟩ := Channel.budgetOk_stepIfDue h
  unfold Channel.writeTarget
  dsimp only
  split
  · exact ⟨Nat.zero_le _, h2, h3, h4, Nat.zero_le _, h6, Nat.zero_le _, fun _ => rfl,
      fun hc => ⟨rfl, (h9 hc).2⟩, h10⟩
  · rename_i h0
    split
    · exact ⟨h1, h2, h3, h4, ht, h6, ht, fun e => absurd e h0, fun hc => ⟨rfl, (h9 hc).2⟩, h10⟩
    · rename_i hc
      split
      · refine ⟨h1, h2, h3, h4, ht, h6, ?_, fun e => absurd e h0, fun e => absurd e hc,
          fun _ => ⟨one_le_slewPeriod hc, Nat.le_refl _⟩⟩
        exact Nat.le_trans (Nat.min_le_right _ _) ht
      · exact ⟨h1, h2, h3, h4, ht, h6, h7, fun e => absurd e h0, fun e => absurd e hc, h10⟩

theorem Channel.budgetOk_writeWindow (h : c.budgetOk g) {n : Nat} (hn : n ≤ 255) : (c.writeWindow n).budgetOk g := by
  obtain ⟨h1, h2, h3, _, h5⟩ := Channel.budgetOk_stepIfDue h
  exact ⟨h1, h2, h3, hn, h5⟩

theorem Channel.budgetOk_writeAsymmetric (h : c.budgetOk g) (on : Bool) : (c.writeAsymmetric on).budgetOk g :=
  Channel.budgetOk_stepIfDue h

theorem Channel.budgetOk_writeCeiling (h : c.budgetOk g) {n : Nat} (h1 : 1 ≤ n) (h2 : n ≤ 4095) :
    (c.writeCeiling n).budgetOk g := by
  obtain ⟨_, _, _, h'⟩ := h
  exact ⟨Nat.min_le_right _ _, h1, h2, h'⟩

theorem Channel.budgetOk_writeSlewCode (h : c.budgetOk g) (code : Fin 8) : (c.writeSlewCode code).budgetOk g := by
  obtain ⟨h1, h2, h3, h4, h5, h6, h7, h8, h9, h10⟩ := Channel.budgetOk_stepIfDue h
  unfold Channel.writeSlewCode
  dsimp only
  split
  · rename_i hc
    exact ⟨h1, h2, h3, h4, h5, h6, h5, id, fun _ => ⟨rfl, rfl⟩, fun e => absurd hc e⟩
  · rename_i hc
    exact ⟨h1, h2, h3, h4, h5, h6, h7, h8, fun e => absurd e hc, fun _ => ⟨one_le_slewPeriod hc, Nat.le_refl _⟩⟩

/-- A channel whose target, rate and credit are 0 keeps them so through a round mark and a slew step. -/
theorem Channel.zero_mark (h : c.target = 0 ∧ c.rate = 0 ∧ c.credit = 0) :
    c.mark.target = 0 ∧ c.mark.rate = 0 ∧ c.mark.credit = 0 := by
  obtain ⟨h1, h2, h3⟩ := h
  have : c.refill = { c with credit := 0 } := by simp [Channel.refill, h2, h3]
  unfold Channel.mark Channel.countSlew
  rw [this]
  rw [if_pos (.inr (by rw [show ({ c with credit := 0 } : Channel).rate = c.rate from rfl, h2]; exact h1.symm))]
  exact ⟨h1, h2, rfl⟩

theorem Channel.zero_stepIfDue (h : c.target = 0 ∧ c.rate = 0 ∧ c.credit = 0) :
    c.stepIfDue.target = 0 ∧ c.stepIfDue.rate = 0 ∧ c.stepIfDue.credit = 0 := by
  obtain ⟨h1, h2, h3⟩ := h
  unfold Channel.stepIfDue
  split
  · refine ⟨h1, ?_, h3⟩
    have := (c.step_between.2 (by omega)).2
    show c.step.rate = 0
    omega
  · exact ⟨h1, h2, h3⟩

end

/-! ### One supervisor (R65) -/

section
variable {u : Supervisor}

/-- A round mark keeps the ranges, once the TRIP and the return to calm that were due are taken. -/
theorem Supervisor.itemsOk_mark (h : u.itemsOk) (hd : u.tripDue = false) (hc : u.calmCount < 256) {load : Nat}
    (hl : load ≤ 65535) : (u.mark load).itemsOk := by
  obtain ⟨h1, h2, h3, h4, h5, h6, h7, h8, h9, h10, h11⟩ := h
  have ho := h7 hd
  unfold Supervisor.mark
  cases hs : u.state
  case run =>
    dsimp only
    split
    · refine ⟨hl, ?_, ?_, h4, h5, h6, ?_, ?_, ?_, ?_, ?_⟩ <;> simp_all <;> omega
    · have hr : deglitchRounds u.deglitch ≤ 8 := by
        have : ∀ d : Fin 4, deglitchRounds d ≤ 8 := by decide
        exact this _
      refine ⟨hl, ?_, ?_, h4, h5, h6, ?_, ?_, ?_, ?_, ?_⟩ <;> simp_all <;> omega
  case throttled =>
    refine ⟨hl, ?_, h3, ?_, h5, h6, ?_, ?_, ?_, ?_, ?_⟩ <;> simp_all
    · omega
    · split <;> omega
  all_goals
    refine ⟨hl, ?_, h3, h4, h5, h6, ?_, ?_, ?_, ?_, ?_⟩ <;> simp_all
  all_goals omega

/-- The decimation count stays within its range. -/
theorem decimation_le (n : Nat) (d : Fin 4) : n % decimationOf d ≤ 15 := by
  have h : ∀ d : Fin 4, 0 < decimationOf d ∧ decimationOf d ≤ 16 := by decide
  have := Nat.mod_lt n (h d).1
  have := (h d).2
  omega

end

end Sys2Proof.Machine
end

