-- ==== Sys2Proof/Laws/Shots.lean ====
section
/-! SUPPORT. Shots, the store's evictions and the list of ports: what each shared operation does (chapters 2 and 3). -/

namespace Sys2Proof.Machine

/-! ### Ports -/

/-- What each port's turn keeps, the turns of all ports keep. -/
theorem eachPort_induction (f : Port → State → State) (P : State → Prop) (h : ∀ k s, P s → P (f k s)) (s : State)
    (h0 : P s) : P (eachPort f s) := by
  unfold eachPort allPorts
  simp only [List.foldl]
  exact h _ _ (h _ _ (h _ _ (h _ _ (h _ _ (h _ _ (h _ _ (h _ _ h0)))))))

/-- A mask with one more port. -/
theorem inMask_or_portBit (m : BitVec 8) (k j : Port) : inMask (m ||| portBit k) j = (inMask m j || decide (j = k)) := by
  have : ∀ k j : Port, (portBit k).getLsbD j = decide (j = k) := by decide
  simp only [inMask, BitVec.getLsbD_or, this]

/-! ### Evictions -/

/-- With nothing evictable on the age list there is no victim. -/
theorem victim_eq_none {s : State} (h : ∀ m ∈ s.store.ageList, (s.record m).evictable s.store.evictSent = false) :
    victim s = none := by
  have : ∀ st, oldestEvictable st s = none := by
    intro st
    simp only [oldestEvictable, List.find?_eq_none]
    intro n hn
    simp [h n hn]
  simp [victim, this]

/-- A victim is on the age list. -/
theorem mem_of_victim {s : State} {n : Nat} (h : victim s = some n) : n ∈ s.store.ageList := by
  unfold victim at h
  have mem : ∀ st, oldestEvictable st s = some n → n ∈ s.store.ageList := fun st h => List.mem_of_find?_eq_some h
  rcases h1 : oldestEvictable .delivered s with _ | a
  · rcases h2 : oldestEvictable .held s with _ | b
    · simp [h1, h2] at h; exact mem _ h
    · simp [h1, h2] at h; subst h; exact mem _ h2
  · simp [h1] at h; subst h; exact mem _ h1

/-- A page writer's bytes leave the free page list and the age list as they stand. -/
theorem placeBytes_lists (k : Port) (c : Nat) (s : State) :
    (placeBytes k c s).store.freePages = s.store.freePages ∧ (placeBytes k c s).store.ageList = s.store.ageList := by
  have fr : ∀ (l : List Nat) (s : State),
      (l.foldl (fun s b => recoverBlock b s) s).store.freePages = s.store.freePages ∧
        (l.foldl (fun s b => recoverBlock b s) s).store.ageList = s.store.ageList := by
    intro l
    induction l with
    | nil => intro s; exact ⟨rfl, rfl⟩
    | cons b l ih =>
      intro s
      have : (recoverBlock b s).store.freePages = s.store.freePages ∧
          (recoverBlock b s).store.ageList = s.store.ageList := by
        unfold recoverBlock; split <;> exact ⟨rfl, rfl⟩
      have := ih (recoverBlock b s)
      simp only [List.foldl_cons]
      simp_all
  unfold placeBytes
  split
  · exact ⟨rfl, rfl⟩
  · exact fr _ s

/-! ### Shots -/

/-- The two ways of saying which shot is closed for want of room are one. -/
theorem withShotRoom_eq (s : State) : withShotRoom s = makeShotRoom s := by
  unfold withShotRoom makeShotRoom
  cases s.shots.shots with
  | nil => rfl
  | cons h rest =>
    have : closingVerdict s = automaticVerdict s := by
      unfold closingVerdict automaticVerdict; cases s.shots.lineState <;> rfl
    simp only [this, Config.openShotMax, List.length_cons]
    by_cases hl : rest.length < 63
    · rw [if_pos hl, if_pos (by omega)]
    · rw [if_neg hl, if_neg (by omega)]

/-- The references of a closed shot leave the shot table as it stands. -/
theorem shots_foldl_closeReference (v : Verdict) (l : List (Port × Nat)) (s : State) :
    (l.foldl (closeReference v) s).shots = s.shots := by
  induction l generalizing s with
  | nil => rfl
  | cons p l ih =>
    rw [List.foldl_cons, ih]
    unfold closeReference promote enqueue
    dsimp only
    repeat' split
    all_goals rfl

/-- What a close does to one referenced record (R35, R36). -/
theorem closeReference_spec (v : Verdict) (s : State) (p : Port × Nat)
    (hwf : Table.wf FrameRecord.blank s.store.catalogue) (hp : (s.record p.2).port = p.1) :
   let t := closeReference v s p
   t.record p.2 = { s.record p.2 with
      verdictPending := false
      keep := (s.record p.2).keep || decide (v ≠ .pass)
      state := if promoted v s p then .queued else (s.record p.2).state } ∧
   (∀ n, n ≠ p.2 → t.record n = s.record n) ∧
   (t.liveQueue p.1 = if promoted v s p then s.liveQueue p.1 ++ [p.2] else s.liveQueue p.1) ∧
   (∀ k, k ≠ p.1 → t.liveQueue k = s.liveQueue k) ∧
   (t.portCount p.1 .promoteFailed = s.portCount p.1 .promoteFailed + if v ≠ .pass ∧ (s.record p.2).state = .held ∧ (s.record p.2).recallPending = false ∧
        64 ≤ (s.liveQueue p.1).length then 1 else 0) ∧
   (∀ k c, k ≠ p.1 ∨ c ≠ .promoteFailed → t.portCount k c = s.portCount k c) ∧
   Table.wf FrameRecord.blank t.store.catalogue ∧
   t = { s with
      store := { s.store with catalogue := t.store.catalogue }
      uplink := { s.uplink with live := t.uplink.live }
      events := { s.events with portCounts := t.events.portCounts } } := by
  intro t
  let r' : FrameRecord := { s.record p.2 with verdictPending := false, keep := (s.record p.2).keep || decide (v ≠ .pass) }
  let u := s.setRecord p.2 r'
  have hur : u.record p.2 = r' := State.record_setRecord hwf _ _
  have huo : ∀ n, n ≠ p.2 → u.record n = s.record n := fun n hn => State.record_setRecord_other hwf hn _
  have hul : ∀ k, u.liveQueue k = s.liveQueue k := fun _ => rfl
  have huw : Table.wf FrameRecord.blank u.store.catalogue := Table.wf_set hwf _ _
  have et : t = if v ≠ .pass ∧ (s.record p.2).state = .held then promote p.2 u else u := by
    show (if v ≠ .pass ∧ (u.record p.2).state = .held then promote p.2 u else u) = _
    rw [hur]
  have hpu : (u.record p.2).port = p.1 := by rw [hur]; exact hp
  by_cases h1 : v ≠ .pass ∧ (s.record p.2).state = .held
  · rw [if_pos h1] at et
    unfold promote at et
    simp only [hpu, hul, Config.liveQueueMax] at et
    rw [hur] at et
    by_cases h2 : (s.record p.2).recallPending = true
    · have : t = u := by rw [et, if_pos]; exact h2
      have hnp : promoted v s p = false := by simp [promoted, h2]
      rw [this, hur, hnp]
      refine ⟨by simp [r'], huo, by simp [hul], fun k _ => hul k, by simp [h2]; rfl, fun _ _ _ => rfl, huw, rfl⟩
    · have h2' : (s.record p.2).recallPending = false := by simpa using h2
      rw [if_neg h2] at et
      by_cases h3 : (s.liveQueue p.1).length < 64
      · rw [if_pos h3] at et
        have hnp : promoted v s p = true := by simp [promoted, h1.1, h1.2, h2', h3]
        rw [hnp]
        have hw2 : Table.wf FrameRecord.blank (u.setLive p.1 (u.liveQueue p.1 ++ [p.2])).store.catalogue := huw
        rw [et]
        refine ⟨?_, ?_, ?_, ?_, ?_, fun _ _ _ => rfl, Table.wf_set huw _ _, rfl⟩
        · unfold enqueue; rw [State.modRecord_eq, State.record_setRecord hw2]; show ({ u.record p.2 with state := .queued } : FrameRecord) = _; rw [hur]; simp [r']
        · intro n hn; unfold enqueue; rw [State.modRecord_eq, State.record_setRecord_other hw2 hn]; exact huo n hn
        · unfold enqueue; simp [State.liveQueue, State.modRecord, State.setLive, u]
        · intro k hk
          have : p.1.val ≠ k.val := fun e => hk (Fin.ext e.symm)
          unfold enqueue; simp [State.liveQueue, State.modRecord, State.setLive, this, u]
        · have : ¬ 64 ≤ (s.liveQueue p.1).length := by omega
          simp [this]; rfl
      · rw [if_neg h3] at et
        have hnp : promoted v s p = false := by simp [promoted, h3]
        rw [hnp, et]
        refine ⟨by rw [show (u.count p.1 .promoteFailed).record p.2 = u.record p.2 from rfl, hur]; simp [r'], huo, by simp; rfl, fun k _ => hul k, ?_, ?_, huw, rfl⟩
        · rw [if_pos ⟨h1.1, h1.2, h2', by omega⟩]
          simp [State.portCount, State.count, u]
        · intro k c hk
          by_cases hkp : p.1.val = k.val
          · have hc : c ≠ .promoteFailed := hk.resolve_left fun h => h (Fin.ext hkp.symm)
            have hx : (PortCount.idx .promoteFailed).val ≠ (PortCount.idx c).val := by
              revert hc; cases c <;> decide
            simp [State.portCount, State.count, hkp, hx, u]
          · simp [State.portCount, State.count, hkp, u]
  · rw [if_neg h1] at et
    have hnp : promoted v s p = false := by
      simp only [promoted, decide_eq_false_iff_not]; tauto
    rw [hnp, et]
    refine ⟨by rw [hur]; simp [r'], huo, by simp [hul], fun k _ => hul k, ?_, fun _ _ _ => rfl, huw, rfl⟩
    rw [if_neg (by tauto)]; simp; rfl


end Sys2Proof.Machine
end

