-- ==== Sys2Proof/Laws/Lane.lean ====
section
/-! SUPPORT. What the page writer and its page requests can do, said once: bytes placed, evictions without a page, a page
handed out or refused; and the truncation by an OPEN. -/

namespace Sys2Proof.Machine

/-! ### Placing bytes -/

/-- What placing bytes does with no block in error (R12): the bytes in memory, byte length, and load byte count. -/
theorem placeBytes_sound {s : State} {k : Port} {l : StagedLine} {rest : List StagedLine}
    (hl : (s.cam k).staging = l :: rest) (hs : ∀ b, s.blockHealth b = .sound) (count : Nat) :
    placeBytes k count s =
      let r := s.record l.owner
      let bytes := (l.payload.drop (s.cam k).written).take count
      ((({ s with
          store := { s.store with mem := writeMem s.store.mem (frameAddress r.chain r.byteLength) bytes } }.setRecord
          l.owner { r with byteLength := r.byteLength + bytes.length }).modCam k
        fun c => { c with written := c.written + bytes.length }).modSup k
        fun u => { u with loadBytes := u.loadBytes + bytes.length }) := by
  unfold placeBytes
  rw [hl]
  simp only [writeBytes_sound s hs]
  rfl

/-! ### Evictions for a page -/

/-- What an eviction changes, and for a record that is not free: the catalogue stays in canonical form. -/
theorem wf_evict {s : State} (h : Table.wf FrameRecord.blank s.store.catalogue) (n : Nat) :
    Table.wf FrameRecord.blank (evict n s).store.catalogue := Table.wf_set h _ _

/-- A victim is evictable. -/
theorem evictable_of_victim {s : State} {n : Nat} (h : victim s = some n) :
    (s.record n).evictable s.store.evictSent = true := by
  have main : ∀ st, oldestEvictable st s = some n → (s.record n).evictable s.store.evictSent = true := by
    intro st h
    have := List.find?_some h
    simp at this
    exact this.2
  unfold victim at h
  rcases h1 : oldestEvictable .delivered s with _ | a
  · rcases h2 : oldestEvictable .held s with _ | b
    · simp [h1, h2] at h; exact main _ h
    · simp [h1, h2] at h; subst h; exact main _ h2
  · simp [h1] at h; subst h; exact main _ h1

/-- A record that is FILLING is not evictable. -/
theorem not_evictable_of_filling {r : FrameRecord} (h : r.state = .filling) (b : Bool) : r.evictable b = false := by
  simp [FrameRecord.evictable, h]

/-- What evictions made for a page leave as it stands: `n` is a record being assembled. -/
structure PageFrame (n : Nat) (s t : State) : Prop where
  wf : Table.wf FrameRecord.blank t.store.catalogue
  record : t.record n = s.record n
  mem : t.store.mem = s.store.mem
  health : t.store.health = s.store.health
  cams : t.cams = s.cams
  sups : t.sups = s.sups

theorem PageFrame.refl {n : Nat} {s : State} (h : Table.wf FrameRecord.blank s.store.catalogue) : PageFrame n s s :=
  ⟨h, rfl, rfl, rfl, rfl, rfl⟩

theorem PageFrame.trans {n : Nat} {s t u : State} (h : PageFrame n s t) (g : PageFrame n t u) : PageFrame n s u :=
  ⟨g.wf, g.record.trans h.record, g.mem.trans h.mem, g.health.trans h.health, g.cams.trans h.cams, g.sups.trans h.sups⟩

/-- The eviction of a victim leaves a FILLING record, memory and the ports as they stand. -/
theorem pageFrame_evict {n v : Nat} {s : State} (h : Table.wf FrameRecord.blank s.store.catalogue)
    (hn : (s.record n).state = .filling) (hv : victim s = some v) : PageFrame n s (evict v s) := by
  have hne : n ≠ v := by
    rintro rfl
    have := evictable_of_victim hv
    rw [not_evictable_of_filling hn] at this
    cases this
  exact ⟨wf_evict h v, State.record_setRecord_other (s := s.setLookup _ _ none) h hne _, rfl, rfl, rfl, rfl⟩

/-- Evicting for a page leaves a FILLING record, memory and the ports as they stand. -/
theorem pageFrame_evictForPage {n : Nat} (fuel : Nat) {s : State} (h : Table.wf FrameRecord.blank s.store.catalogue)
    (hn : (s.record n).state = .filling) : PageFrame n s (evictForPage fuel s) := by
  induction fuel generalizing s with
  | zero => exact .refl h
  | succ f ih =>
    unfold evictForPage
    split
    · exact .refl h
    · split
      · exact .refl h
      · rename_i v hv
        have g := pageFrame_evict h hn hv
        exact g.trans (ih g.wf (by rw [g.record]; exact hn))

/-- A page request leaves a FILLING record, memory and the ports as they stand (R43). -/
theorem pageFrame_takePage {n : Nat} {s : State} (h : Table.wf FrameRecord.blank s.store.catalogue)
    (hn : (s.record n).state = .filling) : PageFrame n s (takePage s).2 := by
  have g := pageFrame_evictForPage s.store.ageList.length h hn
  unfold takePage
  dsimp only
  split
  · exact g
  · exact ⟨g.wf, g.record, g.mem, g.health, g.cams, g.sups⟩

/-- Evictions of records with empty chains come about in turn within one page request, whose fuel is the age list's length:
that of the state they leave is no longer. -/
theorem evictForPage_emptyEvictions {vs : List Nat} {s t : State} (h : emptyEvictions vs s t)
    (hf : s.store.freePages = []) {fuel : Nat} (hl : s.store.ageList.length ≤ fuel) :
    t.store.freePages = [] ∧ ∃ fuel', t.store.ageList.length ≤ fuel' ∧ evictForPage fuel s = evictForPage fuel' t := by
  induction vs generalizing s fuel with
  | nil => cases h; exact ⟨hf, fuel, hl, rfl⟩
  | cons v vs ih =>
    obtain ⟨hv, hc, h⟩ := h
    have hm := mem_of_victim hv
    have hlt : (s.store.ageList.filter (· ≠ v)).length < s.store.ageList.length := by
      rw [List.length_filter_lt_length_iff_exists]; exact ⟨v, hm, by simp⟩
    obtain ⟨f, rfl⟩ : ∃ f, fuel = f + 1 := ⟨fuel - 1, by omega⟩
    have hf' : (evict v s).store.freePages = [] := by
      show s.store.freePages ++ (s.record v).chain = []
      rw [hf, hc]; rfl
    have hl' : (evict v s).store.ageList.length ≤ f := by
      show (s.store.ageList.filter (· ≠ v)).length ≤ f
      omega
    obtain ⟨h1, f', h2, h3⟩ := ih h hf' hl'
    exact ⟨h1, f', h2, by rw [← h3]; simp [evictForPage, hf, hv]⟩

/-- A page request is handed the page that pageFor says (R43 steps 1 and 2). -/
theorem takePage_of_pageFor {s t : State} {q : Nat} (h : pageFor s q t) : takePage s = (some q, t) := by
  rcases h with ⟨qs, hq, rfl⟩ | ⟨hf, vs, e, v, qs, he, hv, hc, rfl⟩
  · have : evictForPage s.store.ageList.length s = s := by
      cases s.store.ageList.length with
      | zero => rfl
      | succ f => simp [evictForPage, hq]
    simp [takePage, this, hq]
  · obtain ⟨hfe, f, hl, heq⟩ := evictForPage_emptyEvictions he hf (Nat.le_refl _)
    have hm := List.length_pos_of_mem (mem_of_victim hv)
    obtain ⟨f, rfl⟩ : ∃ g, f = g + 1 := ⟨f - 1, by omega⟩
    have hfree : (evict v e).store.freePages = q :: qs := by
      show e.store.freePages ++ (e.record v).chain = _
      rw [hfe, hc]; rfl
    have : evictForPage s.store.ageList.length s = evict v e := by
      rw [heq]
      simp only [evictForPage, hfe, hv]
      cases f with
      | zero => simp [evictForPage]
      | succ f => simp [evictForPage, hfree]
    simp [takePage, this, hfree]

/-- A page request is refused where pageRefused says so (R43 step 3). -/
theorem takePage_of_pageRefused {s t : State} (h : pageRefused s t) : takePage s = (none, t) := by
  obtain ⟨hf, ⟨vs, he⟩, hn⟩ := h
  obtain ⟨hfe, f, -, heq⟩ := evictForPage_emptyEvictions he hf (Nat.le_refl _)
  have : evictForPage s.store.ageList.length s = t := by
    rw [heq]
    cases f with
    | zero => rfl
    | succ f => simp [evictForPage, hfe, victim_eq_none hn]
  simp [takePage, this, hfe]

/-! ### Truncation by an OPEN -/

/-- The end of a warm-up, in the words of the statements. -/
theorem endWarmup_eq (k : Port) (s : State) : endWarmup k s = warmupEnded k s := by
  unfold endWarmup warmupEnded darkWarmupEnded
  dsimp only
  by_cases h : s.dark.pass = .waiting ∧ s.dark.current = k
  · rw [if_pos h, if_pos (by exact h)]; unfold startDarkTest; rw [State.modSup_dark, ← h.2]
  · rw [if_neg h, if_neg (by exact h)]

/-- The truncation by an OPEN, in the words of the statements (R3 step 1). -/
theorem truncateByOpen_eq {s : State} {k : Port} {n : Nat} (h : (s.cam k).current = some n) :
    truncateByOpen k s = openTruncated k n s := by
  unfold truncateByOpen openTruncated endAssembly
  rw [h]
  dsimp only
  have h1 : (s.modRecord n fun r => r.flag .truncated) =
      s.setRecord n { s.record n with flags := (s.record n).flags ||| 0x20 } := by
    simp [State.modRecord_eq, FrameRecord.flag, LaneFlag.only, LaneFlag.bit]
  rw [h1]
  have h2 : (((s.setRecord n { s.record n with flags := (s.record n).flags ||| 0x20 }).modCam k fun c =>
      { c with current := none }).cam k).hasStaged n = (s.cam k).staging.any fun l => decide (l.owner = n) := by
    simp [CameraPort.hasStaged]
  rw [h2]

/-- The truncation leaves the store's phase and the port's next frame number as they stand. -/
theorem openTruncated_frame (s : State) (k : Port) (n : Nat) :
    (openTruncated k n s).store.phase = s.store.phase ∧
      ((openTruncated k n s).cam k).nextFrame = (s.cam k).nextFrame := by
  unfold openTruncated
  dsimp only
  split
  · simp
  · have g := completionFrame_complete k n
      ((s.setRecord n { s.record n with flags := (s.record n).flags ||| 0x20 }).modCam k fun p =>
        { p with current := none })
    refine ⟨g.phase, ?_⟩
    rw [g.cam]; simp

end Sys2Proof.Machine
end

