-- ==== Sys2Proof/Laws/Reads.lean ====
section
/-! SUPPORT. What reading and sending a cell does when blocks it reads are in error (sections 3.4 and 5.7). -/

namespace Sys2Proof.Machine

theorem length_ascending (a n : Nat) : (ascending a n).length = n := by
  induction n generalizing a <;> simp [ascending, *]

theorem getElem?_map_ascending {α : Type} (f : Nat → α) (a n i : Nat) (h : i < n) :
    ((ascending a n).map f)[i]? = some (f (a + i)) := by
  induction n generalizing a i with
  | zero => omega
  | succ n ih =>
    cases i with
    | zero => simp [ascending]
    | succ i =>
      simp only [ascending, List.map_cons, List.getElem?_cons_succ]
      rw [ih (a + 1) i (by omega), show a + 1 + i = a + (i + 1) by omega]

/-- Frame bytes of one block lie in one memory block. -/
theorem frameAddress_block (chain : List Nat) {a b : Nat} (h : a / 64 = b / 64) :
    frameAddress chain a / 64 = frameAddress chain b / 64 := by
  have hp : a / 65536 = b / 65536 := by omega
  have hq : a % 65536 / 64 = b % 65536 / 64 := by omega
  unfold frameAddress
  rw [show Config.pageBytes = 65536 from rfl, hp]
  omega

/-- What reading frame bytes `lo` up to `hi` of record `n` hands over and leaves, whatever the blocks' health (R56, R57). -/
structure BytesReported (n : Nat) (r : FrameRecord) (lo hi : Nat) (s : State) (bytes : List Byte) (poison : Bool)
    (t : State) : Prop where
  length : bytes.length = hi - lo
  byte : ∀ b, lo ≤ b → b < hi → s.blockHealth (frameAddress r.chain b / 64) ≠ .uncorrectable →
    bytes[b - lo]? = some (readByte s (frameAddress r.chain b))
  poisoned : poison = decide ((blocksRead r lo hi).filter (fun b => s.blockHealth b = .uncorrectable) ≠ [])
  record : t.record n = { r with readError := r.readError || poison }
  uncorrectable : t.globalCount .uncorrectable = s.globalCount .uncorrectable +
    wordOf ((blocksRead r lo hi).filter fun b => s.blockHealth b = .uncorrectable).length
  corrected : t.globalCount .corrected = s.globalCount .corrected +
    wordOf ((blocksRead r lo hi).filter fun b => s.blockHealth b = .correctable).length
  storeEcc : t.events.flags.has (.global .storeEcc) = (s.events.flags.has (.global .storeEcc) || poison)

theorem blocksRead_one (r : FrameRecord) {lo hi : Nat} (h : lo < hi) (hi' : hi ≤ (lo / 64 + 1) * 64) :
    blocksRead r lo hi = [frameAddress r.chain lo / 64] := by
  unfold blocksRead
  rw [if_neg (by omega), show (hi - 1) / 64 - lo / 64 + 1 = 1 by omega]
  simp only [ascending, List.map_cons, List.map_nil]
  rw [frameAddress_block r.chain (a := 64 * (lo / 64)) (b := lo) (by omega)]

theorem blocksRead_cons (r : FrameRecord) {lo hi : Nat} (h : (lo / 64 + 1) * 64 < hi) :
    blocksRead r lo hi = frameAddress r.chain lo / 64 :: blocksRead r ((lo / 64 + 1) * 64) hi := by
  unfold blocksRead
  rw [if_neg (by omega), if_neg (by omega),
    show (hi - 1) / 64 - lo / 64 + 1 = ((hi - 1) / 64 - (lo / 64 + 1) * 64 / 64 + 1) + 1 by omega]
  simp only [ascending, List.map_cons]
  rw [frameAddress_block r.chain (a := 64 * (lo / 64)) (b := lo) (by omega),
    show (lo / 64 + 1) * 64 / 64 = lo / 64 + 1 by omega]

theorem globalCount_countGlobal (s : State) (c d : GlobalCount) (n : Nat) :
    (s.countGlobal c n).globalCount d = s.globalCount d + if d = c then wordOf n else 0 := by
  cases c <;> cases d <;> simp [State.globalCount, State.countGlobal, GlobalCount.idx, wordOf]

theorem readBlock_reported {n lo hi : Nat} {s : State} (h : lo < hi) (hi' : hi ≤ (lo / 64 + 1) * 64)
    (hf : (s.record n).state ≠ .free) :
    BytesReported n (s.record n) lo hi s (readBlock n lo hi s).1 (readBlock n lo hi s).2.1 (readBlock n lo hi s).2.2 := by
  have hone := blocksRead_one (s.record n) h hi'
  have hb : ∀ b, lo ≤ b → b < hi → frameAddress (s.record n).chain b / 64 = frameAddress (s.record n).chain lo / 64 :=
    fun b h1 h2 => frameAddress_block _ (by omega)
  have hlen : (frameBytes s (s.record n) lo hi).length = hi - lo := by
    unfold frameBytes; rw [List.length_map, length_ascending]
  have hbyte : ∀ b, lo ≤ b → b < hi →
      (frameBytes s (s.record n) lo hi)[b - lo]? = some (readByte s (frameAddress (s.record n).chain b)) := by
    intro b h1 h2
    unfold frameBytes
    rw [getElem?_map_ascending _ _ _ _ (by omega), show lo + (b - lo) = b by omega]
  unfold readBlock
  dsimp only
  rw [show Config.blockBytes = 64 from rfl]
  cases hh : s.blockHealth (frameAddress (s.record n).chain lo / 64) with
  | sound =>
    exact ⟨hlen, fun b h1 h2 _ => hbyte b h1 h2, by simp [hone, hh], by simp, by simp [hone, hh, wordOf],
      by simp [hone, hh, wordOf], by simp⟩
  | correctable =>
    exact ⟨hlen, fun b h1 h2 _ => hbyte b h1 h2, by simp [hone, hh], by simp [State.record, State.countGlobal],
      by simp [hone, hh, globalCount_countGlobal, wordOf],
      by simp [hone, hh, globalCount_countGlobal, wordOf], by simp [State.countGlobal]⟩
  | uncorrectable =>
    refine ⟨by rw [List.length_map, length_ascending], fun b h1 h2 hn => absurd (by rw [hb b h1 h2]; exact hh) hn,
      by simp [hone, hh], ?_, ?_, ?_, ?_⟩
    · dsimp only
      rw [State.modRecord_eq, State.record_setRecord_of_used _ _ (by exact hf)]
      show { s.record n with readError := true } = _
      rw [Bool.or_true]
    · simp [hone, hh]
      exact globalCount_countGlobal s .uncorrectable .uncorrectable 1
    · simp [hone, hh]
      refine (globalCount_countGlobal s .uncorrectable .corrected 1).trans ?_
      simp [wordOf]
    · simp [State.raise, Events.raise, FlagSet.has_insert]

/-- Two adjacent reads, the first up to a block's end, are one read. -/
theorem BytesReported.append {n lo hi : Nat} {r : FrameRecord} {s t u : State} {b1 b2 : List Byte} {p1 p2 : Bool}
    (h : lo < (lo / 64 + 1) * 64) (g : (lo / 64 + 1) * 64 < hi)
    (h1 : BytesReported n r lo ((lo / 64 + 1) * 64) s b1 p1 t) (hh : t.store.health = s.store.health)
    (hm : t.store.mem = s.store.mem)
    (h2 : BytesReported n { r with readError := r.readError || p1 } ((lo / 64 + 1) * 64) hi t b2 p2 u) :
    BytesReported n r lo hi s (b1 ++ b2) (p1 || p2) u := by
  have he : ∀ b, t.blockHealth b = s.blockHealth b := fun b => by unfold State.blockHealth; rw [hh]
  have hr : ∀ a, readByte t a = readByte s a := fun a => by unfold readByte; rw [hm]
  have hc := blocksRead_cons r g
  have h0 := blocksRead_one r h (Nat.le_refl _)
  have hb : blocksRead { r with readError := r.readError || p1 } ((lo / 64 + 1) * 64) hi =
    blocksRead r ((lo / 64 + 1) * 64) hi := rfl
  obtain ⟨l1, y1, q1, c1, v1, k1, e1⟩ := h1
  obtain ⟨l2, y2, q2, c2, v2, k2, e2⟩ := h2
  simp only [hb, he] at q2 v2 k2
  rw [h0] at q1 v1 k1
  have hsum : ∀ a b : Nat, wordOf a + wordOf b = wordOf (a + b) := by
    intro a b; simp [wordOf, BitVec.ofNat_add]
  refine ⟨by rw [List.length_append, l1, l2]; omega, ?_, ?_, ?_, ?_, ?_, ?_⟩
  · intro b hlo hhi hne
    by_cases hb' : b < (lo / 64 + 1) * 64
    · rw [List.getElem?_append_left (by omega)]
      exact y1 b hlo hb' hne
    · rw [List.getElem?_append_right (by omega), l1, ← hr,
        show b - lo - ((lo / 64 + 1) * 64 - lo) = b - (lo / 64 + 1) * 64 by omega]
      exact y2 b (by omega) hhi (by rw [he]; exact hne)
  · rw [hc, q1, q2]
    cases hx : s.blockHealth (frameAddress r.chain lo / 64) <;> simp [hx]
  · rw [c2]; simp [Bool.or_assoc]
  · rw [v2, v1, hc, BitVec.add_assoc, hsum]
    cases hx : s.blockHealth (frameAddress r.chain lo / 64) <;> simp [hx, Nat.add_comm]
  · rw [k2, k1, hc, BitVec.add_assoc, hsum]
    cases hx : s.blockHealth (frameAddress r.chain lo / 64) <;> simp [hx, Nat.add_comm]
  · rw [e2, e1, Bool.or_assoc]

/-- Reading frame bytes, with blocks enough allowed for. -/
theorem readBlocks_reported {n hi : Nat} (fuel lo : Nat) {s : State} (hfuel : hi ≤ lo ∨ hi ≤ (lo / 64 + fuel) * 64)
    (hf : (s.record n).state ≠ .free) :
    BytesReported n (s.record n) lo hi s (readBlocks n fuel lo hi s).1 (readBlocks n fuel lo hi s).2.1
      (readBlocks n fuel lo hi s).2.2 := by
  have nothing : hi ≤ lo → BytesReported n (s.record n) lo hi s [] false s := fun h =>
    ⟨by simp; omega, fun b _ _ => by omega, by simp [blocksRead, h], by simp, by simp [blocksRead, h, wordOf],
      by simp [blocksRead, h, wordOf], by simp⟩
  induction fuel generalizing lo s with
  | zero => exact nothing (by omega)
  | succ fuel ih =>
    unfold readBlocks
    by_cases hh : hi ≤ lo
    · rw [if_pos hh]; exact nothing hh
    · rw [if_neg hh]
      dsimp only
      rw [show Config.blockBytes = 64 from rfl]
      have hb := readBlock_reported (n := n) (lo := lo) (hi := min hi ((lo / 64 + 1) * 64)) (s := s) (by omega) (by omega) hf
      have hm := readFrame_readBlock n lo (min hi ((lo / 64 + 1) * 64)) s
      generalize readBlock n lo (min hi ((lo / 64 + 1) * 64)) s = x at hb hm ⊢
      obtain ⟨b1, p1, t⟩ := x
      have hr := hb.record
      dsimp only at hb hm hr ⊢
      have ih' := ih (min hi ((lo / 64 + 1) * 64)) (s := t) (by omega) (by rw [hr]; exact hf)
        (fun h => ⟨by simp; omega, fun b _ _ => by omega, by simp [blocksRead, h], by simp,
          by simp [blocksRead, h, wordOf], by simp [blocksRead, h, wordOf], by simp⟩)
      by_cases hlast : hi ≤ (lo / 64 + 1) * 64
      · have e : min hi ((lo / 64 + 1) * 64) = hi := by omega
        rw [e] at hb ih' ⊢
        have none' : readBlocks n fuel hi hi t = ([], false, t) := by
          cases fuel <;> simp [readBlocks]
        rw [none']
        simpa using hb
      · have e : min hi ((lo / 64 + 1) * 64) = (lo / 64 + 1) * 64 := by omega
        rw [e] at hb ih' ⊢
        rw [hr] at ih'
        exact BytesReported.append (by omega) (by omega) hb hm.health hm.mem ih'

/-- What sending the next cell of record `n` on channel `c` does, whatever the blocks' health (R56, R57, R169). -/
theorem sendNext_reported (c : Chan) (n : Nat) (s : State) (hf : (s.record n).state ≠ .free) :
    cellReported s (sendNext c n s) c n (s.record n) ∧
      ∃ e, (sendNext c n s).record n =
        { s.record n with readError := e, cellsSent := (s.record n).cellsSent + 1 } := by
  have h := readBlocks_reported 10 (cellRange (s.record n) (s.record n).cellsSent).1
    (hi := (cellRange (s.record n) (s.record n).cellsSent).2) (s := s)
    (by unfold cellRange; split <;> dsimp only <;> omega) hf
  have hm := readFrame_readBlocks n 10 (cellRange (s.record n) (s.record n).cellsSent).1
    (cellRange (s.record n) (s.record n).cellsSent).2 s
  unfold sendNext readCell
  dsimp only
  generalize readBlocks n 10 _ _ s = x at h hm ⊢
  obtain ⟨bytes, poison, t⟩ := x
  obtain ⟨hl, hb, hp, hr, hu, hk, he⟩ := h
  dsimp only at hl hb hp hr hu hk he hm ⊢
  have rec' : (t.modRecord n fun r => { r with cellsSent := r.cellsSent + 1 }).record n =
      { s.record n with
        readError := (s.record n).readError || poison, cellsSent := (s.record n).cellsSent + 1 } := by
    rw [State.modRecord_eq, hr, State.record_setRecord_of_used _ _ (by exact hf)]
  refine ⟨⟨⟨bytes, hl, hb, ?_⟩, ?_, hu, hk, ?_⟩, _, rec'⟩
  · rw [← hp]
    unfold sendCell dataCell soundCell
    simp [recallChan, hm.link]
    rfl
  · rw [← hp]; exact congrArg FrameRecord.readError rec'
  · rw [← hp]; exact he

end Sys2Proof.Machine
end

