-- ==== Sys2Proof/WellFormed.lean ====
section
/-! DEFINITION. What the outside may send: the checks on a command's operands that their types do not make. -/

namespace Sys2Proof

/-- A command is well formed when its operands can stand on the wire it comes from: a lane message given as unrecognized
is one that R178 does not recognize; a request of unknown kind has a kind that marks a request (R174); the flag set of
CLEAR_EVENTS is ten bytes (R172); a return-lane cell is 16 header bytes and 512 payload bytes (R171); a LINE payload
fits the lengths a lane message can state and the memory errors of a data slot lie in the 4 GiB a strap can select. -/
def Instr.wellFormed : Instr → Bool
  | .laneUnrecognized _ msg => decodeLane msg = none
  | .laneLine _ _ _ _ payload => payload.length < 65536
  | .unknownKindRequest _ _ kind => kind ≠ 0
  | .clearEvents _ _ flags => flags.length = 10
  | .returnCell bytes => bytes.length = 528
  | .dataSlot errors => errors.all fun e => e.block < 65536 * 1024
  | .powerOnReset _ _ | .storeInitEnd | .laneOpen _ _ _ _ _ | .laneClose _ _ | .lineWriteEnd _ | .pageRequest _
  | .trigger _ _ _ _ _ _ | .triggerEdge _ | .triggerSlotExpiry _ | .tag _ _ _ _ | .queryShot _ _ _ | .verdict _ _ _ _
  | .deadlineExpiry _ | .lineWatchdogExpiry | .lineTransfer _ | .read _ _ _ _ | .write _ _ _ _ _ | .lockRead _ _ _ _
  | .writeUnlock _ _ _ _ _ | .unlock _ _ _ | .lockExpiry _ | .enableWrite _ _ _ _ | .warmupArmedWrite _ _ _ _
  | .warmupExpiry _ | .tripThresholdWrite _ _ _ _ | .roundMark | .slewStep _ | .trip _ | .calmReturn _
  | .throttleTimeout _ | .clearFault _ _ _ | .darkMaskWrite _ _ _ | .darkTestExpiry | .lineWatchdogWrite _ _ _
  | .targetWrite _ _ _ _ | .ceilingWrite _ _ _ _ | .slewCodeWrite _ _ _ _ | .maskWrite _ _ _ _ _ | .controlSlot
  | .recallFrame _ _ _ _ | .receipt _ _ _ _ | .hold _ _ _ _ | .unhold _ _ _ _ | .releaseKeep _ _ _ _
  | .queryFrame _ _ _ _ | .flushStore _ _ | .readCounts _ _ _ | .restartLink _ _ | .lossOfLight | .lightReturn
  | .windowEnd | .recoveryExpiry | .chipSelectAssertion => true

end Sys2Proof
end

