-- ==== Sys2Proof/Tests/Slice0.lean ====
section
/-! SUPPORT. Tests: well-formedness refuses what no master or camera can send, single steps from the worked sequences of
spec/, and for each statement with hypotheses a state and operands that meet them. -/

namespace Sys2Proof.Tests

open Sys2Proof Sys2Proof.Machine

/-! ### The states of the tests -/

/-- A small device: every port RUN, dark detector idle, store READY, link UP, line ATTENDED with the watchdog OFF. -/
def bench : State :=
  let s := State.powerOn { grade := .high, memsz := .low, lwd := .low, pstart := .floating } false
  { s with
    dark := { s.dark with pass := .idle, timer := none }
    store := { s.store with phase := .ready, freePages := [40, 41, 42], freeRecords := [305, 306] }
    link := { s.link with state := .up, window := some { valid := 0, failures := 0 } } }

/-- The small device with a port in another supervision state. -/
def benchIn (k : Port) (u : SupState) : State := bench.modSup k fun p => { p with state := u }

/-- Record 7: a frame of port 2, numbered 17, of two lines of 4 bytes. -/
def record7 (st : RecState) : FrameRecord :=
  { FrameRecord.blank with port := 2, frame := 17, width := 4, height := 2, bpp := 1, state := st }

/-- The small device with record 7 in the catalogue and the lookup map. -/
def benchWith (r : FrameRecord) : State := (bench.setRecord 7 r).setLookup 2 17 (some 7)

/-- The small device while port 2 assembles frame 17. -/
def assembling (r : FrameRecord) (staging : List StagedLine) (accepted : Nat) : State :=
  (benchWith r).modCam 2 fun p =>
    { p with
      receive := .assembling, current := some 7, nextFrame := 18, expected := 1, linesReceived := 1
      bytesAccepted := accepted, staging }

/-- A line of record 7. -/
def line7 : StagedLine := { payload := [1, 2, 3, 4], owner := 7 }

/-- An open shot that wants port 2 and has fired it. -/
def shot9 : Shot :=
  { number := 9, tag := none, origin := .request, wanted := 4, fired := 4, missed := 0, seen := 0, keep := false
    deadline := 500, remaining := 500000, refs := [] }

/-- The small device with open shots. -/
def benchShots (l : List Shot) : State :=
  { bench with shots := { bench.shots with shots := l, next := 10, window := [9] } }

/-- The small device with the link in another state. -/
def benchLink (st : LinkState) : State := { bench with link := { bench.link with state := st } }

/-- The small device with record 7 at the head of port 2's live queue. -/
def benchLive (r : FrameRecord) (credit : Nat) : State :=
  ((benchWith r).setLive 2 [7]).modChan 2 fun c => { c with credit }

/-- The small device with record 7 at the head of the recall queue. -/
def benchRecall (r : FrameRecord) (started : Bool) : State :=
  (({ benchWith r with recalls := { queue := [{ record := 7, started }], marks := .all 0 } } : State).modChan 8
    fun c => { c with credit := 16 })

theorem unbarred_of_free {m : Master} {l : Fin 13} {s : State} (h : s.lock l = none) : unbarred m l s := by
  intro e he; rw [h] at he; cases he

theorem unbarred_of_held {m : Master} {l : Fin 13} {s : State} {e : Lock} (h : s.lock l = some e) (hm : e.holder = m) :
    unbarred m l s := by
  intro e' he; rw [h] at he; cases he; exact hm

theorem not_ok_of {ε α : Type} {x : Except ε α} (h : x.toOption = none) : ∀ a, x ≠ .ok a := by
  intro a ha; rw [ha] at h; cases h

/-! ### Well-formedness -/

/-- CLOSE with its line count is a message the port recognizes. -/
theorem test_wf_laneUnrecognized : (Instr.laneUnrecognized 0 [3, 0, 2]).wellFormed = false := by decide

theorem test_wf_laneLine (payload : List Byte) (h : payload.length = 65536) :
    (Instr.laneLine 0 0 0 0 payload).wellFormed = false := by
  simp only [Instr.wellFormed, h]; decide

/-- Kind 00H marks no request. -/
theorem test_wf_unknownKindRequest : (Instr.unknownKindRequest .line 1 0).wellFormed = false := by decide

theorem test_wf_clearEvents : (Instr.clearEvents .line 1 [0, 0, 0, 0, 0, 0, 0, 0, 0]).wellFormed = false := by decide

theorem test_wf_returnCell : (Instr.returnCell [0x11]).wellFormed = false := by decide

theorem test_wf_dataSlot :
    (Instr.dataSlot [{ block := 67108864, correctable := true }]).wellFormed = false := by decide

theorem test_wf_accepted :
    (Instr.laneUnrecognized 0 [4]).wellFormed = true ∧ (Instr.clearEvents .line 1 (List.replicate 10 0)).wellFormed =
      true ∧ (Instr.dataSlot [{ block := 67108863, correctable := true }]).wellFormed = true := by decide

/-- No row of the opcode table gives bits. -/
theorem test_decodeTableWord : decodeTableWord 8 0x03 = none := rfl

/-! ### Witnesses: steps, camera ports, the store -/

theorem witness_StepRunsFrontCommand : step { bench with pending := [.roundMark] } = exec .roundMark bench := rfl

theorem witness_IdleStepPassesTime : bench.pending = [] := rfl

theorem witness_PowerOnResetLeaves : ∃ t, exec (.powerOnReset allLow true) bench = .next t := ⟨_, rfl⟩

theorem witness_PstartSetsPorts : allLow.pstart = .low ∧ ({ allLow with pstart := .high } : Straps).pstart ≠ .low := by
  decide

theorem witness_DiscardedAndUnknownLaneMessages :
    ((benchIn 3 .disabled).sup 3).state = .disabled ∧ ((benchIn 3 .tripped).sup 3).state = .tripped ∧
      receiving (bench.sup 3).state ∧ byteAt [4] 0 ≠ 1 ∧ byteAt [4] 0 ≠ 2 ∧ byteAt [4] 0 ≠ 3 ∧
      byteAt [1, 0, 0, 0, 0, 0, 0] 0 = 1 ∧ byteAt [2, 0, 0, 0, 0, 0] 0 = 2 ∧ byteAt [3, 0] 0 = 3 := by
  unfold receiving; decide

theorem witness_StrayLineCounted :
    receiving (bench.sup 3).state ∧ (bench.cam 3).receive = .idle ∧
      ((bench.modCam 3 fun p => { p with receive := .skipping }).cam 3).receive = .skipping := by
  unfold receiving; decide

theorem witness_OpenAcceptedFillsRecord :
    receiving (bench.sup 2).state ∧ (bench.cam 2).receive ≠ .assembling ∧ dimensionsOk 16384 2048 1 ∧
      bench.store.phase = .ready ∧ bench.lookup 2 (bench.cam 2).nextFrame = none ∧
      bench.store.freeRecords = [305, 306] ∧ shotFor 2 (benchShots [shot9]) = some shot9 := by
  unfold receiving dimensionsOk; decide

/-- Record 7 is evicted: for want of a free record, and because it holds the key; and port 2 assembles, a line staged or
none. -/
theorem witness_OpenAcceptedFillsRecord_ways :
    let s := benchWith (record7 .held)
    let full := { s with store := { s.store with freeRecords := [], ageList := [7] } }
    let wrapped := s.modCam 2 fun p => { p with nextFrame := 17 }
    let busy := fun staging => assembling (record7 .filling) staging 4
    (victim full = some 7 ∧ full.lookup 2 (full.cam 2).nextFrame = none) ∧
    (wrapped.lookup 2 (wrapped.cam 2).nextFrame = some 7 ∧
      (wrapped.record 7).evictable wrapped.store.evictSent = true ∧
      wrapped.store.freeRecords ++ [7] = 305 :: [306, 7]) ∧
    ∀ staging ∈ [[], [line7]], ((busy staging).cam 2).receive = .assembling ∧
      ((busy staging).cam 2).current = some 7 ∧ receiving ((busy staging).sup 2).state ∧
      (openTruncated 2 7 (busy staging)).lookup 2 ((busy staging).cam 2).nextFrame = none ∧
      (openTruncated 2 7 (busy staging)).store.freeRecords = [305, 306] := by
  unfold receiving; decide

/-- Port 2 assembles frame 17 in record 7, which is cut short, and its line still waits. A HELD record 8 is evicted: for want
of a free record, and because it holds key (2, 18). -/
theorem witness_OpenAcceptedFillsRecord_assembling :
    let busy := assembling (record7 .filling) [line7] 4
    let two := busy.setRecord 8 { record7 .held with frame := 18 }
    let full := { two with store := { two.store with freeRecords := [], ageList := [8] } }
    let wrapped := two.setLookup 2 18 (some 8)
    (receiving (full.sup 2).state ∧ (full.cam 2).receive = .assembling ∧ (full.cam 2).current = some 7 ∧
      full.store.phase = .ready ∧ (openTruncated 2 7 full).lookup 2 (full.cam 2).nextFrame = none ∧
      (openTruncated 2 7 full).store.freeRecords = [] ∧ victim (openTruncated 2 7 full) = some 8) ∧
    (wrapped.cam 2).receive = .assembling ∧ (wrapped.cam 2).current = some 7 ∧
      (openTruncated 2 7 wrapped).lookup 2 (wrapped.cam 2).nextFrame = some 8 ∧
      ((openTruncated 2 7 wrapped).record 8).evictable (openTruncated 2 7 wrapped).store.evictSent = true ∧
      (openTruncated 2 7 wrapped).store.freeRecords ++ [8] = 305 :: [306, 8] := by
  unfold receiving; decide

/-- The refusals of R3 in turn: 2 × 65535 × 4 bytes is within the limits of width and height alone. -/
theorem witness_OpenRefusedOrTruncating :
    receiving (bench.sup 2).state ∧ (bench.cam 2).receive ≠ .assembling ∧ ¬dimensionsOk 4097 1 4 ∧
      ¬dimensionsOk 16384 2049 1 ∧ dimensionsOk 4096 1 4 ∧
      ({ bench with store := { bench.store with phase := .initializing } } : State).store.phase = .initializing ∧
      ((benchWith (record7 .queued)).modCam 2 fun p => { p with nextFrame := 17 }).lookup 2 17 = some 7 ∧
      (record7 .queued).evictable true = false ∧
      (∀ n ∈ [7], ((benchWith (record7 .sending)).record n).evictable true = false) ∧
      ∀ staging ∈ [[], [line7]], ((assembling (record7 .filling) staging 4).cam 2).receive = .assembling ∧
        ((assembling (record7 .filling) staging 4).cam 2).current = some 7 := by
  unfold receiving dimensionsOk; decide

theorem witness_LineTestedAndStaged :
    receiving ((assembling (record7 .filling) [] 33554432).sup 2).state ∧
      ((assembling (record7 .filling) [] 33554432).cam 2).current = some 7 ∧
      ((assembling (record7 .filling) [] 33554432).record 7).state = .filling ∧
      33554432 - ((assembling (record7 .filling) [] 33554432).cam 2).bytesAccepted = 0 ∧
      33554432 - ((assembling (record7 .filling) [] 33554430).cam 2).bytesAccepted = 2 ∧
      33554432 - ((assembling (record7 .filling) [] 33554428).cam 2).bytesAccepted = line7.payload.length ∧
      ((assembling (record7 .filling) (List.replicate 8 line7) 36).cam 2).staging.length = 8 ∧
      ((assembling (record7 .filling) (List.replicate 8 line7) 33554430).cam 2).staging.length = 8 ∧
      ((assembling (record7 .filling) (List.replicate 7 line7) 32).cam 2).staging.length = 7 := by
  unfold receiving; decide

theorem witness_CloseEndsFrame :
    receiving (bench.sup 2).state ∧ (bench.cam 2).receive = .idle ∧
      ((bench.modCam 2 fun p => { p with receive := .skipping }).cam 2).receive = .skipping ∧
      ((assembling (record7 .filling) [line7] 8).cam 2).receive = .assembling ∧
      (∃ l ∈ ((assembling (record7 .filling) [line7] 8).cam 2).staging, l.owner = 7) ∧
      (∀ l ∈ ((assembling (record7 .filling) [] 8).cam 2).staging, l.owner ≠ 7) ∧
      ((assembling (record7 .filling) [] 8).record 7).state = .filling := by
  unfold receiving; decide

theorem witness_CompletionPlacesRecord :
    ((benchWith (record7 .filling)).record 7).state = .filling ∧ (bench.sup 2).state ≠ .warmup ∧
      ((benchIn 2 .warmup).sup 2).state = .warmup ∧ ((benchIn 2 .warmup).sup 2).warmupCompletions = 0 ∧
      (((benchIn 2 .warmup).modSup 2 fun u => { u with warmupCompletions := 1 }).sup 2).warmupCompletions ≠ 0 ∧
      ((benchWith { record7 .filling with flags := 1 }).record 7).flags ≠ 0 ∧
      (((benchIn 2 .throttled).setRecord 7 (record7 .filling)).sup 2).state = .throttled ∧
      ((bench.setLive 2 (List.replicate 63 0)).liveQueue 2).length < 64 ∧
      64 ≤ ((bench.setLive 2 (List.replicate 64 0)).liveQueue 2).length ∧
      ((bench.modCam 2 fun p => { p with policy := .hold }).cam 2).policy = .hold ∧
      ((bench.modCam 2 fun p => { p with policy := .discard }).cam 2).policy = .discard := by decide

/-- The line's 4 bytes fill page 40 to its end; one byte less of room and they need a page. -/
theorem witness_LineWriteEndStoresLine :
    ((assembling { record7 .filling with byteLength := 65532, chain := [40] } [line7] 65536).cam 2).staging = [line7] ∧
      line7.payload.length ≤ 1 * 65536 - 65532 ∧
      7 ∉ ((assembling (record7 .filling) [line7] 8).cam 2).completion ∧
      7 ∈ ((bench.modCam 2 fun p => { p with staging := [line7], completion := [7] }).cam 2).completion ∧
      (∀ b, bench.blockHealth b = .sound) ∧ Memory.wf bench.store.mem := by
  refine ⟨by decide, by decide, by decide, by decide, fun _ => rfl, by decide⟩

/-- The store serves the request with page 40; by evicting record 8, whose chain is empty, and then record 9; or not at
all. -/
theorem witness_PageRequestServedOrCutShort :
    let s := assembling { record7 .filling with byteLength := 65536, chain := [43] } [line7] 65540
    let full := { s with store := { s.store with freePages := [], ageList := [8, 9] } }
    let e := (full.setRecord 8 (record7 .delivered)).setRecord 9 { record7 .held with chain := [50, 51] }
    (s.cam 2).staging = [line7] ∧ 1 * 65536 - 65536 < line7.payload.length - (s.cam 2).written ∧
      (∀ b, s.blockHealth b = .sound) ∧ s.tablesOk ∧ (s.record 7).state = .filling ∧
      1 = (65536 + 65535) / 65536 ∧ pageFor s 40 { s with store := { s.store with freePages := [41, 42] } } ∧
      pageFor e 50 { evict 9 (evict 8 e) with store := { (evict 9 (evict 8 e)).store with freePages := [51] } } ∧
      pageRefused full full := by
  intro s full e
  refine ⟨by decide, by decide, fun _ => rfl, by unfold State.tablesOk; decide, by decide, by decide,
    .inl ⟨[41, 42], rfl, rfl⟩,
    .inr ⟨by decide, [8], evict 8 e, 9, [51], ⟨by decide, by decide, rfl⟩, by decide, by decide, rfl⟩,
    by decide, ⟨[], rfl⟩, by decide⟩

theorem witness_EvictionOrderAndFreeing :
    (benchWith (record7 .held)).tablesOk ∧ ((benchWith (record7 .held)).record 7).evictable true = true ∧
      ((benchWith (record7 .sent)).record 7).evictable false = false := by
  unfold State.tablesOk; decide

/-! ### Witnesses: shots, supervision -/

theorem witness_TriggersCreateShots :
    (∀ h ∈ (benchShots [shot9]).shots.shots, h.number ≠ (benchShots [shot9]).shots.next) ∧
      bench.shots.pinMasks[(0 : Fin 4)] = 0 ∧
      ({ bench.shots with pinMasks := bench.shots.pinMasks.set 3 0x81 } : ShotTable).pinMasks[(3 : Fin 4)] ≠ 0 ∧
      takable .office bench := by
  unfold takable; decide

theorem witness_SlotExpiryPulsesPort :
    (∀ d ∈ [0, 1], (bench.setSlot 3 (some { shot := 9, remaining := d })).slot 3 = some { shot := 9, remaining := d }) ∧
      bench.slot 3 = none := by decide

theorem witness_TagAndQueryShot :
    Table.wf FrameRecord.blank (benchWith (record7 .held)).store.catalogue ∧
      (benchShots [shot9]).shots.shots.find? (fun g => g.number = 9) = some shot9 ∧
      (∀ h ∈ (benchShots [shot9]).shots.shots, h.number ≠ 10) ∧
      (∀ m, takable m bench) := by
  refine ⟨by decide, by decide, by decide, ?_⟩
  intro m; unfold takable; cases m <;> decide

theorem witness_VerdictHandledInOrder :
    (benchShots [shot9]).shots.shots.find? (fun g => g.number = 9) = some shot9 ∧
      (∀ h ∈ (benchShots []).shots.shots, h.number ≠ 9) ∧ (9 : Half) ∈ (benchShots []).shots.window ∧
      (8 : Half) ∉ (benchShots []).shots.window ∧ takable .office (benchShots []) ∧ 3 ≤ (3 : Byte).toNat ∧
      (2 : Byte).toNat ≤ 2 := by
  unfold takable; decide

/-- Two references, one to a HELD record that finds room and one to a record already SENT. -/
theorem witness_CloseMarksAndPromotes :
    let s := (benchWith (record7 .held)).setRecord 8 { record7 .sent with port := 3 }
    let h := { shot9 with refs := [(2, 7), (3, 8)] }
    Table.wf FrameRecord.blank s.store.catalogue ∧ (h.refs.map Prod.fst).Nodup ∧ (h.refs.map Prod.snd).Nodup ∧
      (∀ p ∈ h.refs, (s.record p.2).port = p.1) ∧ promoted .reject s (2, 7) = true ∧
      promoted .reject s (3, 8) = false ∧ promoted .pass s (2, 7) = false := by decide

theorem witness_DeadlineAndWatchdogExpiries :
    (∀ d ∈ [0, 1], (benchShots [{ shot9 with remaining := d }]).shots.shots.find? (fun g => g.number = 9) =
        some { shot9 with remaining := d }) ∧
      (benchShots [shot9]).shots.lineState = .attended ∧
      ({ bench.shots with lineState := .silent } : ShotTable).lineState = .silent ∧
      (∀ h ∈ (benchShots [shot9]).shots.shots, h.number ≠ 8) ∧
      ({ bench.shots with watchdog := some 0 } : ShotTable).watchdog = some 0 ∧ bench.shots.watchdog ≠ some 0 := by decide

/-- A device with every port DISABLED, as PSTART low leaves it, can be flushed; with one port enabled it cannot. -/
theorem witness_StoreInitAndFlush :
    State.reset.store.phase = .initializing ∧ Table.wf FrameRecord.blank bench.store.catalogue ∧
      takable .office bench ∧ (∃ k : Port, ((benchIn 0 .tripped).sup k).state ≠ .disabled) ∧
      (∀ k : Port, (State.reset.sup k).state = .disabled) ∧ State.reset.recalls.queue.head? = none ∧
      (∀ k : Port, State.reset.liveQueue k = []) ∧
      ({ State.reset.store with phase := .ready } : Store).phase = .ready := by
  unfold takable; decide

theorem witness_QueryFrameAnswersSummary :
    takable .office bench ∧ takable .line bench ∧ (2 : Byte).toNat = (2 : Port).val ∧
      (benchWith (record7 .sent)).lookup 2 17 = some 7 ∧ 8 ≤ (8 : Byte).toNat ∧
      (7 : Byte).toNat = (7 : Port).val ∧ (benchWith (record7 .sent)).lookup 7 17 = none := by
  unfold takable; decide

theorem witness_EnableWriteStartsAndStops :
    takable .office bench ∧ unbarred .office (chanRecord (chanOf 2)) bench ∧
      unbarred .line 2 (bench.setLock 2 (some { holder := .line, remaining := 1 })) ∧
      (bench.sup 2).state ≠ .disabled ∧ ((benchIn 2 .disabled).sup 2).state = .disabled ∧
      ((benchIn 2 .disabled).sup 2).warmupArmed = false ∧
      (((benchIn 2 .disabled).modSup 2 fun u => { u with warmupArmed := true }).sup 2).warmupArmed = true ∧
      2 ≤ (2 : Word).toNat := by
  refine ⟨by unfold takable; decide, unbarred_of_free (by decide), unbarred_of_held (e := ⟨.line, 1⟩) (by decide) rfl,
    by decide, by decide, by decide, by decide, by decide⟩

/-- Record 8 waits on the completion list, record 7 is assembling. -/
theorem witness_EnableWriteStartsAndStops_incomplete :
    let s := ((assembling (record7 .filling) [line7] 8).setRecord 8 (record7 .filling)).modCam 2 fun p =>
      { p with completion := [8] }
    (s.cam 2).completion ++ (s.cam 2).current.toList = [8, 7] ∧ [8, 7].Nodup ∧
      (∀ n ∈ [8, 7], (s.record n).state = .filling) ∧ (s.cam 2).policy ≠ .discard ∧
      Table.wf FrameRecord.blank s.store.catalogue ∧ (s.sup 2).state ≠ .disabled := by decide

theorem witness_WarmupArmedAndExpiry :
    takable .line bench ∧ unbarred .line (chanRecord (chanOf 2)) bench ∧
      ((benchIn 2 .warmup).sup 2).state = .warmup ∧ ((benchIn 2 .warmup).sup 2).warmupTimer ≠ some 0 ∧
      (((benchIn 2 .warmup).modSup 2 fun u => { u with warmupTimer := some 0 }).sup 2).warmupTimer = some 0 ∧
      ((benchIn 2 .disabled).sup 2).state = .disabled ∧ (bench.sup 2).state ≠ .disabled ∧
      (bench.sup 2).state ≠ .warmup ∧ 2 ≤ (2 : Word).toNat := by
  refine ⟨by unfold takable; decide, unbarred_of_free (by decide), by decide⟩

theorem witness_ThresholdAndWatchdogWrites :
    takable .line bench ∧ unbarred .line (chanRecord (chanOf 7)) bench ∧ unbarred .office 12 bench ∧
      (3 : Word).toNat = (3 : Fin 4).val ∧ (0 : Word).toNat = (0 : Fin 4).val := by
  refine ⟨by unfold takable; decide, unbarred_of_free (by decide), unbarred_of_free (by decide), by decide, by decide⟩

/-- The largest last load R65 holds, and a calm count one short of 16 ms. -/
theorem witness_RoundMarkClosesRound :
    let s := (benchIn 4 .throttled).modSup 4 fun u => { u with calmCount := 255, loadBytes := 33554431 }
    (∀ k : Port, (s.sup k).tripDue = false ∧ (s.sup k).calmCount < 256 ∧ (s.sup k).loadBytes / 512 ≤ 65535) ∧
      (∀ c : Chan, (s.chan c).stepDue = false) ∧ (s.sup 4).loadBytes / 512 = 65535 := by decide

theorem witness_SlewStepMovesRate :
    let h := { bench.chan 3 with target := 1200, rate := 400, slewCode := 3, window := 40, stepDue := true }
    ((bench.modChan 3 fun _ => h).chan 3) = h ∧ h.stepDue = true ∧ h.rate < h.target ∧
      ({ h with target := 0 } : Channel).target < h.rate ∧ ({ h with target := 400 } : Channel).target = h.rate := by
  decide

theorem witness_TripCalmAndTimeoutTransitions :
    (∀ mode : TripMode, mode ∈ [TripMode.report, .latch, .throttle, .throttleOff, .throttleRelease] →
      let s := bench.modSup 4 fun u => { u with tripDue := true, tripMode := mode }
      (s.sup 4).state = .run ∧ (s.sup 4).tripDue = true ∧ (s.sup 4).tripMode = mode) ∧
    (((benchIn 4 .throttled).modSup 4 fun u => { u with calmCount := 256 }).sup 4).calmCount = 256 ∧
    (∀ exit : ThrottleExit, exit ∈ [ThrottleExit.toTripped, .toUnguarded] →
      let s := (benchIn 4 .throttled).modSup 4 fun u => { u with throttleExit := exit, throttleTimer := some 0 }
      (s.sup 4).state = .throttled ∧ (s.sup 4).throttleTimer = some 0 ∧ (s.sup 4).calmCount < 256 ∧
        (s.sup 4).throttleExit = exit) ∧ ((benchIn 4 .throttled).sup 4).throttleTimer ≠ some 0 := by
  decide

theorem witness_ClearFaultBySupervisionState :
    takable .office bench ∧ 8 ≤ (8 : Byte).toNat ∧ (7 : Byte).toNat = (7 : Port).val ∧
      (∀ u ∈ [SupState.disabled, .warmup, .run, .throttled, .unguarded, .tripped],
        ((benchIn 7 u).sup 7).state = u) := by
  unfold takable; decide

theorem witness_DarkDetectorVisits :
    ({ bench.dark with pass := .testing, timer := some 0 } : DarkDetector).pass = .testing ∧
      ({ bench.dark with pass := .testing, timer := some 0 } : DarkDetector).timer = some 0 ∧
      bench.dark.timer ≠ some 0 ∧ takable .office bench ∧
      unbarred .office 12 bench :=
  ⟨rfl, rfl, by decide, by unfold takable; decide, unbarred_of_free (by decide)⟩

/-! ### Witnesses: the uplink, recall, the link -/

theorem witness_TargetWriteByCase :
    takable .line bench ∧ unbarred .line (chanRecord 5) bench ∧ ((benchIn 5 .tripped).sup 5).state = .tripped ∧
      (∀ k : Port, (5 : Chan) = chanOf k → (bench.sup k).state ≠ .tripped) ∧
      (∀ k : Port, (8 : Chan) = chanOf k → (bench.sup k).state ≠ .tripped) ∧
      min (4000 : Word).toNat (gradeMaximum bench.link.grade) = 2336 ∧ (bench.chan 5).slewCode ≠ 0 ∧
      (bench.chan 5).rate ≠ 0 ∧ (bench.chan 8).slewCode = 0 ∧
      (slewed ((bench.modChan 5 fun c => { c with target := 0, rate := 0 }).chan 5)).rate = 0 ∧
      (slewed ((bench.modChan 5 fun c => { c with rate := 0, stepDue := true }).chan 5)).rate = 8 := by
  refine ⟨by unfold takable; decide, unbarred_of_free (by decide), by decide⟩

theorem witness_CeilingAndSlewCodeWrites :
    takable .office bench ∧ unbarred .office (chanRecord 8) bench ∧ 8 ≤ (8 : Word).toNat ∧
      (7 : Word).toNat = (7 : Fin 8).val ∧ (7 : Fin 8) ≠ 0 := by
  refine ⟨by unfold takable; decide, unbarred_of_free (by decide), by decide⟩

/-- Channel 2 pays with exactly 16 units; without credit it goes on surplus enable; without a frame there is idle fill. -/
theorem witness_ArbiterGrantsSlot :
    let s := benchLive (record7 .queued) 16
    let free := (benchLive (record7 .queued) 15).modChan 2 fun c => { c with surplus := true }
    (hasCell s 2 ∧ 16 ≤ (s.chan 2).credit ∧ ∀ b, hasCell s b ∧ 16 ≤ (s.chan b).credit →
      turnAfter s.uplink.lastCredit 2 ≤ turnAfter s.uplink.lastCredit b) ∧
    ((∀ b, ¬(hasCell free b ∧ 16 ≤ (free.chan b).credit)) ∧ hasCell free 2 ∧ (free.chan 2).surplus = true ∧
      ∀ b, hasCell free b ∧ (free.chan b).surplus = true →
        turnAfter free.uplink.lastSurplus 2 ≤ turnAfter free.uplink.lastSurplus b) ∧
    ∀ b, ¬hasCell bench b := by
  unfold hasCell; decide

/-- A memory error in the first block of page 40 leaves cells and grants as they are. -/
def errors40 : List MemError := [{ block := 40960, correctable := false }]

/-- A frame of 480 bytes has one cell, which is its last; a frame of 481 bytes has two. -/
theorem witness_DataSlotSendsLiveCell :
    let r := { record7 .queued with byteLength := 480, chain := [40] }
    creditWinner (benchLive r 16) = some (chanOf 2) ∧ (benchLive r 16).liveQueue 2 = 7 :: [] ∧
      0 < r.cellCount ∧ r.cellCount = 1 ∧ ({ r with byteLength := 481 } : FrameRecord).cellCount = 2 ∧
      bytesSound (benchLive r 16) r (cellRange r 0).1 (cellRange r 0).2 ∧
      (errors40.foldl spoilBlock (benchLive r 16)).blockHealth (frameAddress r.chain 0 / 64) = .uncorrectable ∧
      blocksRead r 0 480 = [40960, 40961, 40962, 40963, 40964, 40965, 40966, 40967] ∧ creditWinner ((benchLive r 15).modChan 2 fun c => { c with surplus := true }) = none ∧
      surplusWinner ((benchLive r 15).modChan 2 fun c => { c with surplus := true }) = some (chanOf 2) := by
  refine ⟨by decide, by decide, by decide, by decide, by decide, fun _ _ _ => rfl, by decide, by decide, by decide,
    by decide⟩

theorem witness_DataSlotSendsRecallCell :
    let r := { record7 .held with byteLength := 480, chain := [40], recallPending := true }
    creditWinner (benchRecall r false) = some 8 ∧
      (benchRecall r false).recalls.queue = { record := 7, started := false } :: [] ∧
      ((benchRecall r false).record 7).state ≠ .free ∧ 0 < r.cellCount ∧
      bytesSound (benchRecall r false) r (cellRange r 0).1 (cellRange r 0).2 ∧
      (errors40.foldl spoilBlock (benchRecall r false)).blockHealth (frameAddress r.chain 0 / 64) = .uncorrectable := by
  refine ⟨by decide, by decide, by decide, by decide, fun _ _ _ => rfl, by decide⟩

theorem witness_BlockErrorsReported :
    let r := { record7 .queued with byteLength := 480, chain := [40] }
    let health := [(40960, BlockHealth.correctable), (40961, .uncorrectable)]
    let s := { benchWith r with store := { (benchWith r).store with health } }
    bench.blockHealth 40960 = .sound ∧ s.blockHealth (frameAddress r.chain 0 / 64) = .correctable ∧
      s.blockHealth (frameAddress r.chain 64 / 64) = .uncorrectable ∧ (s.record 7).state ≠ .free := by decide

theorem witness_RecallByTable :
    takable .office bench ∧ 8 ≤ (8 : Byte).toNat ∧ (2 : Byte).toNat = (2 : Port).val ∧
      (benchWith (record7 .sent)).lookup 2 17 = some 7 ∧ (benchWith (record7 .sent)).lookup 2 18 = none ∧
      (benchWith (record7 .sent)).recalls.queue.length < 16 ∧
      16 ≤ ({ queue := List.replicate 16 { record := 8, started := false }, marks := .all 0 } : RecallUnit).queue.length ∧
      (record7 .sending).state = .sending := by
  unfold takable; decide

/-- Event 4 and event 9 of section 6.8: a mark not ahead of 1,204, and one ahead of it; event 6: one behind the stored
mark. -/
theorem witness_ReceiptClampedAndApplied :
    Table.wf FrameRecord.blank (benchWith (record7 .sent)).store.catalogue ∧ bench.link.state = .up ∧
      8 ≤ (8 : Byte).toNat ∧ (5 : Byte).toNat = (5 : Port).val ∧ ¬32768 ≤ ((1204 : Half) - 1200).toNat ∧
      32768 ≤ ((1204 : Half) - 1210).toNat ∧ ((1204 : Half) - 1190).toNat < 32768 ∧
      32768 ≤ ((1198 : Half) - 1200).toNat ∧ (benchLink .recovering).link.state ≠ .up := by decide

theorem witness_HoldsAndKeepReleases :
    takable .office bench ∧ takable .line bench ∧ 8 ≤ (255 : Byte).toNat ∧ (2 : Byte).toNat = (2 : Port).val ∧
      (benchWith (record7 .sent)).lookup 2 17 = some 7 ∧ (benchWith (record7 .sent)).lookup 2 16 = none := by
  unfold takable; decide

theorem witness_WindowEndJudged :
    (benchLink .aligning).link.window = some { valid := 0, failures := 0 } ∧
      (benchLink .aligning).link.state = .aligning ∧ (benchLink .recovering).link.state = .recovering ∧
      (benchLink .up).link.state = .up ∧ (benchLink .up).link.goodRun = 0 ∧
      ({ bench.link with goodRun := 1 } : Link).goodRun = 1 ∧ bench.link.badRun + 1 < faultCount bench.link.faultCode ∧
      ¬(1 ≤ ({ valid := 0, failures := 0 } : Window).valid) ∧ 1 ≤ ({ valid := 1, failures := 4 } : Window).valid ∧
      ¬({ valid := 1, failures := 5 } : Window).failures ≤ 4 := by decide

/-- Record 7 is SENDING at the head of live queue 2, and record 8's recall has started. -/
theorem witness_LeavingUpUndoesSends :
    let t := { benchLive { record7 .sending with cellsSent := 900 } 0 with
      recalls := { queue := [{ record := 8, started := true }], marks := .all 0 } }
    let s := { t.setRecord 8 { record7 .sent with cellsSent := 40 } with link := { t.link with badRun := 1 } }
    s.link.state = .up ∧ Table.wf FrameRecord.blank s.store.catalogue ∧
      (∀ (j k : Port) (n : Nat), (s.liveQueue j).head? = some n → (s.liveQueue k).head? = some n → j = k) ∧
      (∀ e, s.recalls.queue.head? = some e → (s.record e.record).state ≠ .sending) ∧
      s.link.window = some { valid := 0, failures := 0 } ∧ faultCount s.link.faultCode ≤ s.link.badRun + 1 := by
  intro t s
  refine ⟨by decide, by decide, ?_, ?_, by decide, by decide⟩
  · have h : ∀ j : Port, j ≠ 2 → (s.liveQueue j).head? = none := by decide
    intro j k n hj hk
    have hj2 : j = 2 := by by_contra hn; rw [h j hn] at hj; cases hj
    have hk2 : k = 2 := by by_contra hn; rw [h k hn] at hk; cases hk
    rw [hj2, hk2]
  · intro e he
    have : s.recalls.queue.head? = some { record := 8, started := true } := by decide
    rw [this] at he; cases he; decide

theorem witness_LightRecoveryAndRestart :
    (∀ u ∈ [LinkState.down, .aligning, .up, .recovering, .halted], (benchLink u).link.state = u) ∧
      ({ bench.link with state := .recovering, recovery := some 0 } : Link).recovery = some 0 ∧
      bench.link.recovery ≠ some 0 ∧ takable .office bench := by
  unfold takable; decide

theorem witness_ControlSlotByCase :
    bench.link.state = .up ∧ (benchLink .recovering).link.state ≠ .up ∧ bench.reqs.officeAnswers = [] ∧
      (bench.raise .storeEcc).events.noticePending.has (.global .storeEcc) = true ∧
      (∀ e, bench.events.noticePending.has e = false) := by
  refine ⟨by decide, by decide, by decide, by decide, ?_⟩
  intro e
  cases e with
  | global g => cases g <;> decide
  | port p k => cases p <;> revert k <;> decide

/-! ### Witnesses: requests, locks, events -/

/-- A cell carrying READ of CH2 field 10H, reference 1: kind 11H, the header check sums 16-bit words. -/
def readCell11 : List Byte :=
  [0x11, 0, 0, 0, 0, 0, 0, 0, 0, 0, 0, 0, 0, 0, 0x11, 0x00] ++ [6, 1, 0, 1, 2, 0x10] ++ List.replicate 506 0

/-- A cell of receipt kind carrying RECEIPT of port 2, mark 17. -/
def receiptCell12 : List Byte :=
  [0x12, 0, 0, 0, 0, 0, 0, 0, 0, 0, 0, 0, 0, 0, 0x12, 0x00] ++ [7, 0x0C, 0, 1, 2, 0, 17] ++ List.replicate 505 0

set_option maxRecDepth 8000 in
theorem witness_ReturnCellHandedOn :
    bench.link.window = some { valid := 0, failures := 0 } ∧ (benchLink .up).link.state = .up ∧
      ({ bench.link with window := none } : Link).window = none ∧
      headerCheck [0x11] ≠ be16At [0x11] 14 ∧ headerCheck readCell11 = be16At readCell11 14 ∧
      headerCheck receiptCell12 = be16At receiptCell12 14 ∧ byteAt readCell11 0 = 0x11 ∧
      byteAt receiptCell12 0 = 0x12 ∧ decodeRequest (returnPayload readCell11) = some (1, .read 2 0x10) ∧
      formsAnswer (.read 2 0x10) = true ∧ decodeRequest (returnPayload receiptCell12) = some (1, .receipt 2 17) ∧
      bench.reqs.officeAnswers.length < 8 ∧ decodeRequest [6, 0, 0, 1, 2, 0x10] = none := by decide

theorem witness_LineRequestsAndTransfers :
    bench.reqs.lineBuffer = none ∧ bench.reqs.transfer = none ∧
      ({ bench.reqs with lineBuffer := some (bareAnswer 1 2 .late) } : Requests).lineBuffer ≠ none ∧
      ({ bench.reqs with transfer := some { answer := bareAnswer 0 0 .none, inBuffer := false } } : Requests).transfer =
        some { answer := bareAnswer 0 0 .none, inBuffer := false } ∧
      decodeRequest [6, 1, 0, 1, 2] = none ∧ decodeRequest [6, 1, 0, 1, 2, 0x10] = some (1, .read 2 0x10) := by decide

theorem witness_OfficeRequestsAndUnknownKinds :
    answeredSender (.read .office 1 2 0x10) = some .office ∧ (benchLink .halted).link.state ≠ .up ∧
      (benchLink .up).link.state = .up ∧ 8 ≤ (List.replicate 8 (bareAnswer 1 2 .late)).length ∧ takable .office bench := by
  unfold takable; decide

theorem witness_ReadAnswersField :
    takable .office bench ∧ 15 ≤ (15 : Byte).toNat ∧ (14 : Byte).toNat < 15 ∧
      (∀ f, resolveField 14 10 ≠ .ok f) ∧ resolveField 14 9 = .ok (.setting (.mask .office 8)) ∧
      resolveField 12 0x3F = .ok (.status (.lockRemaining 12)) := by
  refine ⟨by unfold takable; decide, by decide, by decide, not_ok_of (by decide), by decide, by decide⟩

/-- The fields at the ends of each record's numbers: CH8 has no camera field, a mask record none at 0AH; the global field
shows flag 8 at its lowest bit. -/
theorem witness_ReadAnswersField_numbers :
    let sending := (benchLive (record7 .sending) 0).modChan 2 fun c => { c with current := some 7 }
    let masked : State := { bench with events := { bench.events with maskOffice := { FlagSet.empty with global := 0x100 } } }
    fieldNumber bench 8 0x01 = none ∧ fieldNumber bench 7 0x2A = some 0 ∧ fieldNumber bench 7 0x2B = none ∧
      fieldNumber bench 8 0x35 = some 0 ∧ fieldNumber bench 0 0x34 = some 0xFFFFFFFF ∧ fieldNumber sending 2 0x34 = some 0x20011 ∧
      fieldNumber bench 9 0x27 = none ∧ fieldNumber bench 10 0x21 = some 0 ∧ fieldNumber bench 11 0x20 = some 2 ∧
      fieldNumber bench 11 0x26 = some 0 ∧ fieldNumber bench 12 0x22 = some 0 ∧ fieldNumber bench 12 0x3F = some 0 ∧
      fieldNumber (bench.setLock 5 (some { holder := .office, remaining := 49001 })) 5 0x3F = some 50 ∧
      fieldNumber masked 14 1 = some 1 ∧ fieldNumber bench 14 10 = none ∧ fieldNumber bench 15 1 = none := by
  decide

/-- Record 7 is the one HELD and the one evictable record. -/
theorem witness_ReadAnswersField_counts :
    let s := benchWith (record7 .held)
    Table.wf FrameRecord.blank s.store.catalogue ∧ [7].Nodup ∧ (∀ n, n ∈ [7] ↔ (s.record n).state = .held) ∧
      ∀ n, n ∈ [7] ↔ (s.record n).evictable s.store.evictSent = true := by
  intro s
  have e : ∀ n, s.record n = if n = 7 then record7 .held else .blank := by
    intro n
    by_cases h : n = 7
    · subst h; rfl
    · rw [if_neg h]; exact Table.get_set_other (by decide) h _
  refine ⟨by decide, by decide, fun n => ?_, fun n => ?_⟩ <;> rw [e] <;> by_cases h : n = 7 <;> simp [h] <;> decide

/-- The office holds CH5's lock (section 8.8). -/
def benchLocked : State := bench.setLock 5 (some { holder := .office, remaining := 50000 })

theorem witness_WriteTestedInOrder :
    takable .line benchLocked ∧ 15 ≤ (15 : Byte).toNat ∧ (∀ f, resolveField 8 1 ≠ .ok f) ∧
      resolveField 0x0D 1 = .ok (.setting (.mask .line 0)) ∧ resolveField 5 0x30 = .ok (.status (.chan 5 .rate)) ∧
      resolveField 5 0x10 = .ok (.setting (.chan 5 .target)) ∧
      (∃ (l : Fin 13) (e : Lock), (5 : Byte).toNat = l.val ∧ benchLocked.lock l = some e ∧ e.holder ≠ .line) ∧
      Setting.badValue (.port 5 .tripMode) 5 = true ∧ Setting.badValue (.chan 5 .target) 0xFFFFFFFF = false ∧
      ((benchIn 5 .tripped).sup 5).state = .tripped ∧ (∀ l : Fin 13, bench.lock l = none) := by
  refine ⟨trivial, by decide, not_ok_of (by decide), by decide, by decide, by decide,
    ⟨5, { holder := .office, remaining := 50000 }, by decide, by decide, by decide⟩, by decide, by decide, by decide,
    by decide⟩

theorem witness_WriteReadsBackStored :
    Setting.badValue (.port 5 .tripMode) 4 = false ∧ Setting.badValue .deadline 0 = false ∧
      Setting.badValue (.mask .line 0) 0xFFFFFFFF = false := by decide

theorem witness_LockReadGrantsOrRenews :
    takable .office benchLocked ∧ takable .line benchLocked ∧ 13 ≤ (13 : Byte).toNat ∧
      (12 : Byte).toNat = (12 : Fin 13).val ∧ (∀ f, resolveField 12 4 ≠ .ok f) ∧
      resolveField 5 0x10 = .ok (.setting (.chan 5 .target)) ∧
      (∃ e, benchLocked.lock 5 = some e ∧ e.holder ≠ .line) ∧ unbarred .office 5 benchLocked ∧
      unbarred .line 4 benchLocked := by
  refine ⟨by unfold takable; decide, trivial, by decide, by decide, not_ok_of (by decide), by decide,
    ⟨{ holder := .office, remaining := 50000 }, by decide, by decide⟩, unbarred_of_held (e := ⟨.office, 50000⟩)
    (by decide) rfl, unbarred_of_free (by decide)⟩

theorem witness_WriteUnlockWritesAndReleases :
    takable .office benchLocked ∧ 13 ≤ (13 : Byte).toNat ∧ (5 : Byte).toNat = (5 : Fin 13).val ∧
      (∃ e, benchLocked.lock 5 = some e ∧ e.holder = .office) ∧
      (¬∃ e, benchLocked.lock 4 = some e ∧ e.holder = .office) ∧ (∀ f, resolveField 5 0x40 ≠ .ok f) ∧
      resolveField 5 0x30 = .ok (.status (.chan 5 .rate)) ∧ resolveField 5 0x10 = .ok (.setting (.chan 5 .target)) ∧
      Setting.badValue (.port 5 .tripMode) 5 = true ∧ Setting.badValue (.chan 5 .target) 800 = false ∧
      (5 : Chan) = chanOf 5 ∧ ((benchIn 5 .tripped).sup 5).state = .tripped := by
  refine ⟨by unfold takable; decide, by decide, by decide, ⟨_, rfl, rfl⟩, ?_, not_ok_of (by decide), by decide,
    by decide, by decide, by decide, by decide, by decide⟩
  rintro ⟨e, he, -⟩
  have : benchLocked.lock 4 = none := by decide
  rw [this] at he; cases he

theorem witness_UnlockAndLockExpiry :
    takable .office benchLocked ∧ 13 ≤ (13 : Byte).toNat ∧ (5 : Byte).toNat = (5 : Fin 13).val ∧
      (∃ e, benchLocked.lock 5 = some e ∧ e.holder = .office) ∧
      (∃ e, benchLocked.lock 5 = some e ∧ e.holder ≠ .line) ∧ bench.lock 5 = none ∧
      (bench.setLock 5 (some { holder := .line, remaining := 0 })).lock 5 = some { holder := .line, remaining := 0 } ∧
      benchLocked.lock 5 = some { holder := .office, remaining := 50000 } := by
  refine ⟨by unfold takable; decide, by decide, by decide, ⟨_, rfl, rfl⟩,
    ⟨{ holder := .office, remaining := 50000 }, by decide, by decide⟩, by decide, by decide, by decide⟩

theorem witness_SettingEventLatches :
    bench.events.maskLine.has (.global .storeEcc) = false ∧ bench.events.maskOffice.has (.global .storeEcc) = false ∧
      (({ FlagSet.empty with global := 0x3FF } : FlagSet).has (.global .storeFlushed)) = true := by decide

theorem witness_ClearEventsAndReadCounts :
    takable .office bench ∧ (0 : Byte) = 0 ∧ (8 : Byte).toNat = (7 : Port).val + 1 ∧ 9 ≤ (9 : Byte).toNat := by
  unfold takable; decide

theorem witness_MaskWriteByOwnMaster : takable .office bench ∧ takable .line bench ∧ Master.line ≠ .office := by
  unfold takable; decide

/-! ### Witnesses: what always holds -/

/-- The small device before a round mark. -/
def beforeMark : State := { bench with pending := [.roundMark] }

theorem witness_StepsKeepBudgets : beforeMark.budgetsOk ∧ ∃ t, step beforeMark = .next t := by
  refine ⟨?_, _, rfl⟩
  unfold State.budgetsOk Channel.budgetOk; decide

theorem witness_StepsKeepSupervisors : beforeMark.supervisorsOk ∧ ∃ t, step beforeMark = .next t := by
  refine ⟨?_, _, rfl⟩
  unfold State.supervisorsOk Supervisor.itemsOk; decide

theorem witness_StepsKeepQueuesLocksAndLink :
    beforeMark.queuesOk ∧ beforeMark.locksOk ∧ beforeMark.link.itemsOk ∧ ∃ t, step beforeMark = .next t := by
  refine ⟨?_, ⟨by decide, ?_⟩, ?_, _, rfl⟩
  · unfold State.queuesOk; decide
  · intro l e he
    have h : ∀ l, beforeMark.lock l = none := by decide
    rw [h l] at he; cases he
  · unfold Link.itemsOk; decide

theorem witness_StepsKeepTables : beforeMark.tablesOk ∧ ∃ t, step beforeMark = .next t := by
  refine ⟨?_, _, rfl⟩
  unfold State.tablesOk; decide

/-! ### Single steps of the worked sequences -/

/-- What a command that is taken makes of the state. -/
def after (c : Instr) (s : State) : State :=
  match exec c s with
  | .next t => t
  | _ => s

/-- Section 1.10: LINE 8 finds 8 lines staged: discarded with OVERRUN, OVERRUN_LINES 1, expected index and lines received 9. -/
theorem test_line_overrun :
    let s := (assembling (record7 .filling) (List.replicate 8 line7) 32).modCam 2 fun p =>
      { p with expected := 8, linesReceived := 8 }
    let t := after (.laneLine 2 8 4 0x0406 [1, 2, 3, 4]) s
    (t.record 7).flags = 0x10 ∧ (t.cam 2).expected = 9 ∧ (t.cam 2).linesReceived = 9 ∧
      (t.cam 2).staging.length = 8 ∧ t.portCount 2 .overrunLines = 1 := by decide

/-- Section 1.10: LINE 11 where 10 is expected takes SEQUENCE; the expected index becomes 12, lines received 11. -/
theorem test_line_sequence :
    let s := (assembling { record7 .filling with flags := 0x10 } (List.replicate 7 line7) 32).modCam 2 fun p =>
      { p with expected := 10, linesReceived := 10 }
    let t := after (.laneLine 2 11 4 0x0406 [1, 2, 3, 4]) s
    (t.record 7).flags = 0x11 ∧ (t.cam 2).expected = 12 ∧ (t.cam 2).linesReceived = 11 ∧
      (t.cam 2).staging.length = 8 := by decide

/-- Section 1.10: CLOSE with line count 12 where 11 came takes COUNT, and the record joins the completion list. -/
theorem test_close_count :
    let s := assembling { record7 .filling with flags := 0x11 } [line7] 8
    let s := s.modCam 2 fun p => { p with linesReceived := 11 }
    let t := after (.laneClose 2 12) s
    (t.record 7).flags = 0x19 ∧ (t.cam 2).receive = .idle ∧ (t.cam 2).completion = [7] ∧ (t.cam 2).expected = 0 := by
  decide

/-- Section 1.10: the last staged line written, the damaged record completes; under HOLD it enters HELD. -/
theorem test_completion_hold :
    let s := (assembling { record7 .filling with flags := 0x19, chain := [40] } [line7] 8).modCam 2 fun p =>
      { p with receive := .idle, current := none, completion := [7], policy := .hold }
    let t := after (.lineWriteEnd 2) s
    (t.record 7).state = .held ∧ (t.record 7).byteLength = 4 ∧ t.store.ageList = [7] ∧ (t.cam 2).lastFlags = 0x19 ∧
      t.portCount 2 .framesCompleted = 1 ∧ t.portCount 2 .framesDamaged = 1 ∧
      t.events.flags.has (.port .laneError 2) = true ∧ readByte t 2621443 = 4 := by decide

/-- Section 2.9: TRIGGER for port 1 with delay 0 and port 3 with 400 µs, port 5 TRIPPED: fired {1}, missed {5}. -/
theorem test_trigger :
    let s := { benchIn 5 .tripped with
      shots := { bench.shots with next := 812, triggerDelay := bench.shots.triggerDelay.set 3 400 } }
    let t := after (.trigger .line 71 0x2A 0 0 0) s
    (t.shots.shots.map fun h => (h.number, h.fired, h.missed, h.seen)) = [(812, 0x02, 0x20, 0)] ∧
      t.slot 3 = some { shot := 812, remaining := 400 } ∧ t.slot 1 = none ∧ t.ctrg[1] = 1 ∧
      t.portCount 5 .triggersMissed = 1 := by decide

/-- Section 2.9: slot 3 expires: the pulse is driven and port 3 joins the fired mask. -/
theorem test_slot_expiry :
    let t := after (.triggerSlotExpiry 3) ((benchShots [shot9]).setSlot 3 (some { shot := 9, remaining := 0 }))
    (t.shots.shots.map Shot.fired) = [0x0C] ∧ t.slot 3 = none ∧ t.ctrg[3] = 1 := by decide

/-- Section 3.9, events 1 to 4 in little: the eviction chooses the DELIVERED record, though a HELD one is older, and the
writer takes the head of its chain, where it places the byte it asked for (R12: 65,537 bytes are 2 pages). -/
theorem test_page_by_eviction :
    let s := (assembling { record7 .filling with byteLength := 65536, chain := [40] } [line7] 65540).setRecord 15
      { record7 .delivered with port := 3, chain := [400, 401, 402] }
    let s := s.setRecord 16 { record7 .held with port := 4, chain := [77] }
    let t := after (.pageRequest 2) { s with store := { s.store with freePages := [], ageList := [16, 15] } }
    (t.record 7).chain = [40, 400] ∧ (t.record 7).byteLength = 65537 ∧ t.store.freePages = [401, 402] ∧ t.store.ageList = [16] ∧
      t.store.freeRecords = [305, 306, 15] ∧ t.globalCount .evictions = 1 := by decide

/-- Section 3.9, event 11: nothing is evictable, and the record is cut short with STORE_FULL. -/
theorem test_page_refused :
    let s := assembling { record7 .filling with byteLength := 65536, chain := [40] } [line7] 65540
    let t := after (.pageRequest 2) { s with store := { s.store with freePages := [] } }
    (t.record 7).flags = 0x40 ∧ (t.cam 2).receive = .skipping ∧ (t.cam 2).staging = [] ∧ t.store.ageList = [7] := by
  decide

set_option maxRecDepth 8000 in
/-- Section 4.10: m2 with load 46 over threshold 40 makes the over-count 1; m3 with load 40 makes it 0. -/
theorem test_round_mark_load :
    let s := fun bytes : Nat => bench.modSup 4 fun u => { u with threshold := 40, loadBytes := bytes, overCount := 0 }
    ((after .roundMark (s 23552)).sup 4).overCount = 1 ∧
      ((after .roundMark (s 20991)).sup 4).overCount = 0 ∧
      ((after .roundMark (s 20991)).sup 4).lastLoad = 40 := by decide

/-- Section 4.10: a TRIP under THROTTLE_OFF with timeout 200 ms. -/
theorem test_trip_throttle :
    let s := bench.modSup 4 fun u =>
      { u with threshold := 40, overCount := 2, tripDue := true, tripMode := .throttleOff, throttleTimeout := 1 }
    let t := after (.trip 4) s
    (t.sup 4).state = .throttled ∧ (t.sup 4).throttleExit = .toTripped ∧ (t.sup 4).throttleTimer = some 200000 ∧
      (t.sup 4).overCount = 0 ∧ t.events.flags.has (.port .trip 4) = true := by decide

/-- R75: the calm count reached 256 first, and the expiry does not happen. -/
theorem test_throttle_timeout_after_calm :
    let s := (benchIn 4 .throttled).modSup 4 fun u =>
      { u with throttleTimer := some 0, throttleExit := .toTripped, calmCount := 256 }
    ((after (.throttleTimeout 4) s).sup 4).state = .throttled ∧
      ((after (.throttleTimeout 4) (after (.calmReturn 4) s)).sup 4).state = .run := by decide

/-- Section 4.10, a dark pass over {2, 5, 6}: port 2 RUN is tested first. -/
theorem test_dark_pass_starts :
    let s := (benchIn 6 .disabled).modSup 5 fun u => { u with state := .warmup }
    let t := after (.darkMaskWrite .line 1 0x64) { s with dark := { s.dark with testTime := 1 } }
    t.dark.pass = .testing ∧ t.dark.current = 2 ∧ t.dark.timer = some 100000 := by decide

/-- Section 4.10: port 5's test runs out; port 6 is DISABLED and skipped, and the pass ends. -/
theorem test_dark_pass_ends :
    let s := { benchIn 6 .disabled with dark := { bench.dark with
      pass := .testing, current := 5, timer := some 0, mask := 0x64 } }
    let t := after .darkTestExpiry s
    t.dark.pass = .idle ∧ t.dark.current = 6 ∧ t.events.flags.has (.port .dark 5) = true := by decide

/-- Section 5.11: target 1,200 written at rate 0 with start rate 400: rate 400, countdown 4. -/
theorem test_target_write :
    let s := bench.modChan 3 fun c => { c with target := 0, rate := 0, startRate := 400, window := 40, countdown := 2 }
    let t := after (.targetWrite .line 1 3 1200) s
    (t.chan 3).rate = 400 ∧ (t.chan 3).target = 1200 ∧ (t.chan 3).countdown = 4 ∧ (t.sup 3).blanking = 32 := by decide

/-- R90, R95: the mark took its step, 8 units up from 0, before the write, which therefore keeps the rate (case 4). -/
theorem test_target_write_after_step_due :
    let s := bench.modChan 3 fun c => { c with target := 600, rate := 0, startRate := 400, stepDue := true }
    let t := after (.targetWrite .line 1 3 1200) s
    (t.chan 3).rate = 8 ∧ (t.chan 3).target = 1200 ∧ (t.chan 3).stepDue = false := by decide

/-- Section 5.11: the steps at m4 (d = 800), m384 (d = 40) and, downward with asymmetric ON, n4 (d = 600). -/
theorem test_slew_step :
    let h := { bench.chan 3 with target := 1200, rate := 400, window := 40, asymmetric := true, stepDue := true }
    ((after (.slewStep 3) (bench.modChan 3 fun _ => h)).chan 3).rate = 408 ∧
      ((after (.slewStep 3) (bench.modChan 3 fun _ => { h with rate := 1160 })).chan 3).rate = 1161 ∧
      ((after (.slewStep 3) (bench.modChan 3 fun _ => { h with rate := 1200, target := 600 })).chan 3).rate = 1196 := by
  decide

/-- Section 5.10: a frame of 1 MiB has 2,049 cells, and the last carries 32 frame bytes from 1,048,544 on. -/
theorem test_cells_of_frame :
    let r := { record7 .queued with byteLength := 1048576 }
    r.cellCount = 2049 ∧ cellRange r 0 = (0, 480) ∧ cellRange r 1 = (480, 992) ∧
      cellRange r 2048 = (1048544, 1048576) := by decide

/-- Section 5.12: after a grant to channel 2 the credit pass begins at channel 0, and one slot costs 16 units. -/
theorem test_credit_grant :
    let s := ((benchLive (record7 .queued) 480).setLive 0 [8]).setRecord 8 { record7 .queued with port := 0 }
    let s := s.modChan 0 fun c => { c with credit := 640 }
    let s := { s with uplink := { s.uplink with lastCredit := 2 } }
    let t := after (.dataSlot []) s
    t.uplink.lastCredit = 0 ∧ (t.chan 0).credit = 624 ∧ (t.chan 2).credit = 480 ∧ t.portCount 0 .cellsLive = 1 := by
  decide

/-- Section 6.8, events 1 and 3: RECALL of a HELD frame is ENTERED (1), and again it is MERGED (0). -/
theorem test_recall :
    let t := after (.recallFrame .office 1 2 17) (benchWith (record7 .held))
    let u := after (.recallFrame .office 2 2 17) t
    t.recalls.queue = [{ record := 7, started := false }] ∧ (t.record 7).recallPending = true ∧
      (u.reqs.officeAnswers.map Answer.value) = [[1], [0]] ∧ u.recalls.queue.length = 1 := by decide

/-- Section 6.8, event 9: RECEIPT(5, 1,210) is taken as 1,204 and covers frame 1,202. -/
theorem test_receipt :
    let s := bench.setRecord 7 { record7 .sent with port := 5, frame := 1202 }
    let s := s.modCam 5 fun p => { p with nextFrame := 1205 }
    let s := { s with recalls := { s.recalls with marks := s.recalls.marks.set 5 1200 } }
    let t := after (.receipt .office 1 5 1210) s
    t.recalls.marks[5] = 1204 ∧ (t.record 7).state = .delivered := by decide

/-- Section 7.12: w1 (11 valid, 37 failures) is bad but below the fault count; w2 (0, 52) takes the link to RECOVERING. -/
theorem test_window_ends :
    let s := fun (w : Window) (run : Nat) => { bench with link := { bench.link with window := some w, badRun := run } }
    let t := after .windowEnd (s { valid := 11, failures := 37 } 0)
    let u := after .windowEnd (s { valid := 0, failures := 52 } 1)
    t.link.state = .up ∧ t.link.badRun = 1 ∧ u.link.state = .recovering ∧ u.link.recovery = some 20000 ∧
      u.events.flags.has (.global .linkDown) = true := by decide

/-- Section 8.7, T2: a long transfer reads the buffered answer (DONE, shot 4,120, reference 71) whole, and its own QUERY_SHOT
of reference 72 is then answered. -/
theorem test_line_transfer :
    let a := doneAnswer 0x06 71 (be16 4120)
    let s := { bench with reqs := { bench.reqs with lineBuffer := some a } }
    let t := after (.lineTransfer ([6, 0x0A, 0, 72, 0x10, 0x18] ++ List.replicate 26 0)) s
    t.reqs.shiftedOut = a.encode ∧ (t.reqs.lineBuffer.map Answer.ref) = some 72 ∧
      t.events.flags.has (.global .answerLost) = false := by decide

/-- Section 8.8, time 3: the office holds CH5's lock, and the line's WRITE is answered RETRY. -/
theorem test_write_locked :
    let t := after (.write .line 12 5 0x10 1000) benchLocked
    (t.reqs.lineBuffer.map Answer.status) = some .retry ∧ (t.chan 5).target = (bench.chan 5).target := by decide

/-- R154: a lock that its holder renews does not expire at the old time. -/
theorem test_lock_renewed :
    let s := bench.setLock 5 (some { holder := .line, remaining := 0 })
    (after (.lockExpiry 5) s).lock 5 = none ∧
      (after (.lockExpiry 5) (after (.lockRead .line 1 5 0x10) s)).lock 5 =
        some { holder := .line, remaining := 50000 } := by decide

/-- Section 8.8, time 6: the office's WRITE_UNLOCK takes the target to 800 and frees the lock; the rate slews from where it
stands. -/
theorem test_write_unlock :
    let s := benchLocked.modChan 5 fun c => { c with target := 600, rate := 600 }
    let t := after (.writeUnlock .office 901 5 0x10 800) s
    (t.chan 5).target = 800 ∧ (t.chan 5).rate = 600 ∧ t.lock 5 = none ∧
      (t.reqs.officeAnswers.map Answer.value) = [be32 800] := by decide

/-- Section 9.8, events 1 and 7: a TRIP on port 3 pulls ATTN low; masking TRIP of port 3 for the line releases it. -/
theorem test_attn :
    let s := { bench with events := { bench.events with noticePending := .empty } }
    let t := s.raisePort 3 .trip
    let u := after (.maskWrite .line 1 .line 4 1) t
    t.attnLow = true ∧ t.events.noticePending.has (.port .trip 3) = true ∧ u.attnLow = false := by decide

/-- Section 9.8, events 5 and 6: the answer goes first, then the notice empties the notice-pending set. -/
theorem test_control_slots :
    let s := after (.clearEvents .office 1 [0, 1, 0, 0, 0, 0, 0, 0, 0, 0]) (bench.raise .storeEcc)
    let t := after .controlSlot s
    let u := after .controlSlot t
    s.events.flags.has (.global .storeEcc) = false ∧ (t.uplink.sent.map UplinkCell.kind) = some .answer ∧
      t.events.noticePending.has (.global .storeEcc) = true ∧ (u.uplink.sent.map UplinkCell.kind) = some .notice ∧
      u.events.noticePending.has (.global .storeEcc) = false := by decide

end Sys2Proof.Tests
end

section
/-! PROOFS. Power-on reset (R1, R19 and the reset columns of every chapter) and stray lines (R6). -/

namespace Sys2Proof.Machine

/-! ### The state after power-on reset, accessor by accessor -/

/-- What POWER_ON_RESET leaves of a state: the reset values, with the draws and the command queue as they stand
(log entry 24). -/
def State.afterReset (straps : Straps) (light : Bool) (s : State) : State :=
  { State.powerOn straps light with draws := s.draws, pending := s.pending }

theorem exec_powerOnReset (straps : Straps) (light : Bool) (s : State) :
    exec (.powerOnReset straps light) s = .next (s.afterReset straps light) := rfl

theorem PerPort.getElem_all {α : Type} (x : α) (k : Port) : (PerPort.all x)[k] = x := by
  simp [PerPort.all]

section AfterReset

variable (straps : Straps) (light : Bool) (s : State) (k : Port)

@[simp] theorem State.dark_afterReset : (s.afterReset straps light).dark = .reset straps.pstart := rfl

@[simp] theorem State.uplink_afterReset :
    (s.afterReset straps light).uplink = .reset straps.pstart (gradeOf straps.grade) := rfl

@[simp] theorem State.link_afterReset :
    (s.afterReset straps light).link = .reset (gradeOf straps.grade) light := rfl

@[simp] theorem State.events_afterReset : (s.afterReset straps light).events = .reset := rfl

@[simp] theorem State.cam_afterReset : (s.afterReset straps light).cam k = .reset := PerPort.getElem_all _ k

@[simp] theorem State.sup_afterReset : (s.afterReset straps light).sup k = .reset straps.pstart :=
  PerPort.getElem_all _ k

@[simp] theorem State.slot_afterReset : (s.afterReset straps light).slot k = none := PerPort.getElem_all _ k

@[simp] theorem State.liveQueue_afterReset : (s.afterReset straps light).liveQueue k = [] := PerPort.getElem_all _ k

@[simp] theorem State.chan_afterReset_camera :
    (s.afterReset straps light).chan (chanOf k) = .resetCamera straps.pstart (gradeOf straps.grade) := by
  have hk : 8 ≠ k.val := by omega
  simp [State.chan, State.afterReset, State.powerOn, Uplink.reset, chanOf, Vector.getElem_set_ne, hk]

@[simp] theorem State.chan_afterReset_recall : (s.afterReset straps light).chan 8 = .resetRecall :=
  Vector.getElem_set_self ..

@[simp] theorem State.lock_afterReset (l : Fin 13) : (s.afterReset straps light).lock l = none :=
  Vector.getElem_replicate ..

@[simp] theorem State.portCount_afterReset (c : PortCount) : (s.afterReset straps light).portCount k c = 0 := by
  simp [State.portCount, State.afterReset, State.powerOn, Events.reset, PerPort.all]

@[simp] theorem State.globalCount_afterReset (c : GlobalCount) : (s.afterReset straps light).globalCount c = 0 :=
  Vector.getElem_replicate ..

end AfterReset

/-! ### The event flags after power-on reset -/

@[simp] theorem FlagSet.has_empty (e : Event) : FlagSet.empty.has e = false := by
  cases e with
  | global g => simp [FlagSet.has, FlagSet.empty]
  | port p k => simp [FlagSet.has, FlagSet.empty, PerPort.all]

/-- LINK_UP alone is masked for the line (R160). -/
theorem Events.reset_maskLine : Events.reset.maskLine = FlagSet.empty.insert (.global .linkUp) := rfl

/-- With no flag SET, ATTN is not driven, whatever the line masks (R162). -/
theorem State.attnLow_of_flags_empty {s : State} (h : s.events.flags = .empty) : s.attnLow = false := by
  refine Bool.eq_false_iff.mpr fun hlow => ?_
  obtain ⟨e, he⟩ := (FlagSet.nonempty_iff _).mp hlow
  simp [h, FlagSet.has_without] at he

/-! ### The units whose reset values follow a strap -/

theorem ShotTable.watchdog_reset (lwd : Level2) :
    (ShotTable.reset lwd).watchdog = if lwd = .low then none else some 8000000 := by
  cases lwd <;> rfl

theorem readSetting_lineWatchdog_afterReset (straps : Straps) (light : Bool) (s : State) :
    readSetting (s.afterReset straps light) .lineWatchdog = if straps.lwd = .low then 0 else 3 := by
  obtain ⟨_, _, lwd, _⟩ := straps
  cases lwd <;> rfl

theorem DarkDetector.reset_of_low : DarkDetector.reset .low =
    { pass := .idle, current := 0, timer := none, mask := 0, testTime := 3 } := rfl

theorem DarkDetector.reset_of_ne_low {p : Level3} (h : p ≠ .low) : DarkDetector.reset p =
    { pass := .testing, current := 0, timer := some 400000, mask := 0xFF, testTime := 3 } := by
  simp [DarkDetector.reset, portEnabledAtReset, h, Config.usPerMs]

/-- The dark-port detector begins at port 0 with a 400 ms test time, whatever PSTART says (R83, R86). -/
theorem DarkDetector.reset_current_testTime (p : Level3) :
    (DarkDetector.reset p).current = 0 ∧ darkTestTime (DarkDetector.reset p).testTime = 400000 := by
  cases p <;> exact ⟨rfl, rfl⟩

theorem Store.memoryGiB_reset (m : Level3) :
    memoryGiB (Store.reset m).memSize = match m with | .low => 1 | .floating => 2 | .high => 4 := by
  cases m <;> rfl

/-- Settles O3: the next state is `State.afterReset`, read unit by unit. -/
theorem powerOnResetLeaves : Obligations.PowerOnResetLeaves := by
  intro straps light s
  refine ⟨s.afterReset straps light, exec_powerOnReset .., rfl,
    ?cams, ?sups, ?shots, ?dark, ?store, ?channels, ?recallChannel, ?recalls, ?link, ?requests, ?events⟩
  case cams => simp [CameraPort.reset]
  case sups =>
    simp [Supervisor.reset, warmupTime, deglitchRounds, throttleTime, decimationOf, Config.usPerMs]
  case shots =>
    exact ⟨rfl, rfl, rfl, fun _ => State.slot_afterReset .., rfl, rfl, rfl, fun _ => Vector.getElem_replicate ..,
      PerPort.getElem_all _, ShotTable.watchdog_reset _, readSetting_lineWatchdog_afterReset ..⟩
  case dark =>
    rw [State.dark_afterReset]
    obtain ⟨hcurrent, htime⟩ := DarkDetector.reset_current_testTime straps.pstart
    refine ⟨hcurrent, htime, fun hlow => ?_, fun hne => ?_⟩
    · simp [hlow, DarkDetector.reset_of_low]
    · simp [DarkDetector.reset_of_ne_low hne]
  case store =>
    exact ⟨rfl, Store.memoryGiB_reset _, rfl, rfl, rfl, fun _ _ => rfl, fun _ => rfl, rfl⟩
  case channels => simp [Channel.resetCamera]
  case recallChannel => simp [Channel.resetRecall, Uplink.reset]
  case recalls => exact ⟨rfl, PerPort.getElem_all _⟩
  case link => simp [Link.reset, faultCount]
  case requests => exact ⟨rfl, rfl, fun _ => State.lock_afterReset ..⟩
  case events =>
    refine ⟨rfl, rfl, rfl, fun e => ?_, State.attnLow_of_flags_empty rfl,
      fun _ _ => State.portCount_afterReset .., fun _ => State.globalCount_afterReset ..⟩
    simp [Events.reset_maskLine, FlagSet.has_insert]

/-! ### Stray lines (R6) -/

/-- A port's count after it has risen by 1. -/
@[simp] theorem State.portCount_count (s : State) (k : Port) (c : PortCount) :
    (s.count k c).portCount k c = s.portCount k c + 1 := by
  simp [State.portCount, State.count]

/-- While the port receives messages, a LINE goes to the reception logic (R2). -/
theorem exec_laneLine_of_receiving {s : State} {k : Port} (h : receiving (s.sup k).state)
    (index length check : Half) (payload : List Byte) :
    exec (.laneLine k index length check payload) s = .next (takeLineMessage k index length check payload s) := by
  change Host.Outcome.next (laneMessage k (some (.line index length check payload)) s) = _
  simp [laneMessage, receives_of_receiving h]

/-- Outside ASSEMBLING the reception logic only counts a LINE (R6). -/
theorem takeLineMessage_of_not_assembling {s : State} {k : Port}
    (h : (s.cam k).receive = .idle ∨ (s.cam k).receive = .skipping)
    (index length check : Half) (payload : List Byte) :
    takeLineMessage k index length check payload s = s.count k .stray := by
  rcases h with h | h <;> simp [takeLineMessage, h]

/-- Settles O6: the line reaches the reception logic, which counts it and keeps every port as it stands. -/
theorem strayLineCounted : Obligations.StrayLineCounted := by
  intro s k index length check payload hreceiving hstate
  refine ⟨?_, State.portCount_count .., ?_⟩
  · rw [exec_laneLine_of_receiving hreceiving, takeLineMessage_of_not_assembling hstate]
  · rw [State.cam_count]

end Sys2Proof.Machine
end

section
/-! PROOFS. The frame store's own requests: FLUSH_STORE and QUERY_FRAME, with the end of the store's initialization
(chapter 3). -/

namespace Sys2Proof.Machine

/-! ### Requests -/

/-- A request that is taken is answered with the reply of its own rule, found on the device that has heard its master. -/
theorem arrive_of_handle {m : Master} {s t : State} {req : Request} {r : Reply} (h : takable m s) (ref : Half)
    (hf : formsAnswer req = true) (hr : handle m req (heard m s) = (t, r)) :
    arrive m ref req s = answered m (answerTo ref (requestKind req) r) t := by
  rw [arrive_of_takable h ref hf, hr]

/-! ### The end of the store's initialization (R59) -/

/-- The device once its store's initialization has ended. -/
def State.initEnded (s : State) : State := { s with store := { s.store with phase := .ready, mem := [], health := [] } }

theorem exec_storeInitEnd_of_initializing {s : State} (h : s.store.phase = .initializing) :
    exec .storeInitEnd s = .next s.initEnded := by
  change execStoreInitEnd s = _
  simp [execStoreInitEnd, h, State.initEnded]

@[simp] theorem State.readByte_initEnded (s : State) (a : Nat) : readByte s.initEnded a = 0 := rfl

@[simp] theorem State.blockHealth_initEnded (s : State) (b : Nat) : s.initEnded.blockHealth b = .sound := rfl

/-! ### FLUSH_STORE: its tests, in the order of R60 -/

/-- What refuses the line's FLUSH_STORE PORTS_ACTIVE: an enabled port, a camera channel sending, or channel 8 sending
(R60). -/
def State.flushBarred (s : State) : Prop :=
  (∃ k : Port, (s.sup k).state ≠ .disabled) ∨
    (∃ (k : Port) (n : Nat), n ∈ s.liveQueue k ∧ (s.record n).state = .sending) ∨
    ∃ e, s.recalls.queue.head? = some e ∧ e.started = true

theorem anyPortActive_iff (s : State) : anyPortActive s = true ↔ ∃ k : Port, (s.sup k).state ≠ .disabled := by
  simp [anyPortActive, mem_allPorts]

theorem anySending_iff (s : State) :
    anySending s = true ↔
      (∃ (k : Port) (n : Nat), n ∈ s.liveQueue k ∧ (s.record n).state = .sending) ∨
        ∃ e, s.recalls.queue.head? = some e ∧ e.started = true := by
  simp [anySending, mem_allPorts, Option.any_eq_true]

theorem flushBarred_iff (s : State) : s.flushBarred ↔ anyPortActive s = true ∨ anySending s = true := by
  rw [anyPortActive_iff, anySending_iff, State.flushBarred]

@[simp] theorem heard_flushBarred (m : Master) (s : State) : (heard m s).flushBarred ↔ s.flushBarred := by
  simp [State.flushBarred]

theorem handleFlush_office (s : State) : handleFlush .office s = (s, refuse .wrongMaster) := rfl

theorem handleFlush_of_barred {s : State} (h : s.flushBarred) : handleFlush .line s = (s, refuse .portsActive) := by
  simp [handleFlush, (flushBarred_iff s).mp h]

theorem handleFlush_of_initializing {s : State} (h : ¬s.flushBarred) (hphase : s.store.phase = .initializing) :
    handleFlush .line s = (s, retry) := by
  simp only [handleFlush, Bool.or_eq_true, ← flushBarred_iff, h, hphase, if_true, if_false]

theorem handleFlush_of_ready {s : State} (h : ¬s.flushBarred) (hphase : s.store.phase = .ready) :
    handleFlush .line s = (flushStore s, doneWith []) := by
  simp only [handleFlush, Bool.or_eq_true, ← flushBarred_iff, h, hphase, if_false, reduceCtorEq]

theorem exec_flushStore_of_takable {m : Master} {s t : State} {r : Reply} (h : takable m s) (ref : Half)
    (hr : handleFlush m (heard m s) = (t, r)) :
    exec (.flushStore m ref) s = .next (answered m (answerTo ref 0x14 r) t) :=
  congrArg Host.Outcome.next (arrive_of_handle (req := .flushStore) h ref rfl hr)

/-! ### FLUSH_STORE: its effect (R61) -/

theorem FrameRecord.state_flushed (r : FrameRecord) : r.flushed.state = .free := by
  by_cases h : r.state = .free
  · simp [FrameRecord.flushed, h]
  · simp [FrameRecord.flushed, h, FrameRecord.freed]

/-- A flush takes every record of the catalogue to what `FrameRecord.flushed` says; one never opened stays blank. -/
theorem State.record_flushStore {s : State} (h : Table.wf FrameRecord.blank s.store.catalogue) (n : Nat) :
    (flushStore s).record n = (s.record n).flushed :=
  Table.get_mapValues h FrameRecord.flushed rfl n

@[simp] theorem State.lookup_flushStore (s : State) (k : Port) (n : Half) : (flushStore s).lookup k n = none := rfl

@[simp] theorem State.liveQueue_flushStore (s : State) (k : Port) : (flushStore s).liveQueue k = [] :=
  PerPort.getElem_all [] k

/-- Settles O21: each test of R60 by the lemma about `handleFlush` that names it, the effect item by item. -/
theorem storeInitAndFlush : Obligations.StoreInitAndFlush := by
  refine ⟨fun s hphase => ?initEnd, fun s ref hwf => ?flush⟩
  case initEnd =>
    exact ⟨s.initEnded, exec_storeInitEnd_of_initializing hphase, rfl, s.readByte_initEnded, s.blockHealth_initEnded, rfl⟩
  case flush =>
    have hline : takable .line s := trivial
    have hheard : (heard .line s).flushBarred ↔ s.flushBarred := heard_flushBarred ..
    refine ⟨fun htake => ?office, fun hbar => ?barred, fun hbar hphase => ?initializing, fun hbar hphase => ?ready⟩
    case office => exact exec_flushStore_of_takable htake ref (handleFlush_office _)
    case barred => exact exec_flushStore_of_takable hline ref (handleFlush_of_barred (hheard.mpr hbar))
    case initializing =>
      exact exec_flushStore_of_takable hline ref (handleFlush_of_initializing (mt hheard.mp hbar) hphase)
    case ready =>
      refine ⟨flushStore (heard .line s),
        exec_flushStore_of_takable hline ref (handleFlush_of_ready (mt hheard.mp hbar) hphase),
        rfl, rfl, rfl, rfl, State.lookup_flushStore _, fun n => ?_, rfl,
        State.liveQueue_flushStore _, fun _ => rfl, rfl, rfl, rfl, rfl, rfl, rfl, rfl, rfl⟩
      rw [State.record_flushStore (s := heard .line s) hwf, FrameRecord.state_flushed]

/-! ### QUERY_FRAME (R63) -/

theorem handleQueryFrame_of_named {s : State} {port : Byte} {frame : Half} {n : Nat} (h : s.named port frame = some n) :
    handleQueryFrame port frame s =
      (s, doneWith (frameSummary n (s.record n) ((s.record n).evictable s.store.evictSent))) := by
  simp [handleQueryFrame, h]

theorem handleQueryFrame_of_unnamed {s : State} {port : Byte} {frame : Half} (h : s.named port frame = none) :
    handleQueryFrame port frame s = (s, refuse .notFound) := by
  simp [handleQueryFrame, h]

theorem exec_queryFrame_of_takable {m : Master} {s t : State} {r : Reply} {port : Byte} {frame : Half}
    (h : takable m s) (ref : Half) (hr : handleQueryFrame port frame (heard m s) = (t, r)) :
    exec (.queryFrame m ref port frame) s = .next (answered m (answerTo ref 0x09 r) t) :=
  congrArg Host.Outcome.next (arrive_of_handle (req := .queryFrame port frame) h ref rfl hr)

/-- Settles O22: a name with an entry is answered its record's summary, any other name is refused. -/
theorem queryFrameAnswersSummary : Obligations.QueryFrameAnswersSummary := by
  refine fun s m ref port frame htake => ⟨fun k n r hport hentry hr => ?found, fun hnone => ?notFound⟩
  case found =>
    subst hr
    have hname : (heard m s).named port frame = some n := by rw [heard_named]; exact named_eq_some hport hentry
    rw [exec_queryFrame_of_takable htake ref (handleQueryFrame_of_named hname), heard_record, heard_store]
    rfl
  case notFound =>
    have hname : (heard m s).named port frame = none := by rw [heard_named]; exact named_eq_none hnone
    exact exec_queryFrame_of_takable htake ref (handleQueryFrame_of_unnamed hname)

end Sys2Proof.Machine
end

section
/-! PROOFS. The recall unit's own requests: RECALL, HOLD and UNHOLD, and RELEASE_KEEP (chapter 6). -/

namespace Sys2Proof.Machine

/-! ### RECALL: its rows, in the order of R109 -/

/-- The device once an entry for record `n` has joined the tail of the recall queue, not yet started (R109). -/
def State.enterRecall (n : Nat) (s : State) : State :=
  { s with recalls := { s.recalls with queue := s.recalls.queue ++ [{ record := n, started := false }] } }

theorem recallMerges_iff (r : FrameRecord) :
    recallMerges r = true ↔ r.state = .filling ∨ r.state = .queued ∨ r.state = .sending ∨ r.recallPending = true := by
  simp [recallMerges, or_assoc]

theorem handleRecall_line (port : Byte) (frame : Half) (s : State) :
    handleRecall .line port frame s = (s, refuse .wrongMaster) := rfl

theorem handleRecall_of_unnamed {s : State} {port : Byte} {frame : Half} (h : s.named port frame = none) :
    handleRecall .office port frame s = (s, refuse .notFound) := by
  simp [handleRecall, h]

section NamedRecall

variable {s : State} {port : Byte} {frame : Half} {n : Nat}

theorem handleRecall_of_merges (h : s.named port frame = some n) (hm : recallMerges (s.record n) = true) :
    handleRecall .office port frame s = (s, doneWith [0]) := by
  simp [handleRecall, h, hm]

theorem handleRecall_of_full (h : s.named port frame = some n) (hm : ¬recallMerges (s.record n) = true)
    (hfull : 16 ≤ s.recalls.queue.length) : handleRecall .office port frame s = (s, retry) := by
  simp [handleRecall, h, hm, hfull]

theorem handleRecall_of_room (h : s.named port frame = some n) (hm : ¬recallMerges (s.record n) = true)
    (hroom : s.recalls.queue.length < 16) :
    handleRecall .office port frame s =
      ((s.enterRecall n).setRecord n { s.record n with recallPending := true }, doneWith [1]) := by
  simp only [handleRecall, h, hm, Nat.not_le.mpr hroom, if_false]
  rfl

end NamedRecall

theorem exec_recallFrame_of_takable {m : Master} {s t : State} {r : Reply} {port : Byte} {frame : Half}
    (h : takable m s) (ref : Half) (hr : handleRecall m port frame (heard m s) = (t, r)) :
    exec (.recallFrame m ref port frame) s = .next (answered m (answerTo ref 0x0B r) t) :=
  congrArg Host.Outcome.next (arrive_of_handle (req := .recallFrame port frame) h ref rfl hr)

/-- Settles O37: each row of R109's table by the lemma about `handleRecall` that names it. -/
theorem recallByTable : Obligations.RecallByTable := by
  refine fun s ref port frame => ⟨?line, fun htake => ⟨fun hnone => ?notFound, fun k n r hport hentry hr => ?named⟩⟩
  case line => exact exec_recallFrame_of_takable (m := .line) trivial ref (handleRecall_line ..)
  case notFound => exact exec_recallFrame_of_takable htake ref (handleRecall_of_unnamed (named_eq_none hnone))
  case named =>
    subst hr
    have hname : s.named port frame = some n := named_eq_some hport hentry
    have hmerges := recallMerges_iff (s.record n)
    refine ⟨fun hm => ?merged, fun hm hfull => ?full, fun hm hroom => ?entered⟩
    case merged => exact exec_recallFrame_of_takable htake ref (handleRecall_of_merges hname (hmerges.mpr hm))
    case full => exact exec_recallFrame_of_takable htake ref (handleRecall_of_full hname (mt hmerges.mp hm) hfull)
    case entered => exact exec_recallFrame_of_takable htake ref (handleRecall_of_room hname (mt hmerges.mp hm) hroom)

/-! ### HOLD and UNHOLD (R118) -/

/-- The hold that is written is the sender's own; the other master's stays as it stands. -/
theorem FrameRecord.withHold_eq (r : FrameRecord) (m : Master) (b : Bool) :
    r.withHold m b = { r with
      lineHold := if m = .line then b else r.lineHold
      officeHold := if m = .office then b else r.officeHold } := by
  cases m <;> rfl

theorem handleSetHold_of_unnamed {s : State} {port : Byte} {frame : Half} (h : s.named port frame = none)
    (m : Master) (b : Bool) : handleSetHold m b port frame s = (s, refuse .notFound) := by
  simp [handleSetHold, h]

theorem handleSetHold_of_named {s : State} {port : Byte} {frame : Half} {n : Nat} (h : s.named port frame = some n)
    (m : Master) (b : Bool) :
    handleSetHold m b port frame s =
      (s.setRecord n { s.record n with
        lineHold := if m = .line then b else (s.record n).lineHold
        officeHold := if m = .office then b else (s.record n).officeHold }, doneWith []) := by
  simp [handleSetHold, h, State.modRecord_eq, FrameRecord.withHold_eq]

theorem exec_hold_of_takable {m : Master} {s t : State} {r : Reply} {port : Byte} {frame : Half}
    (h : takable m s) (ref : Half) (hr : handleSetHold m true port frame (heard m s) = (t, r)) :
    exec (.hold m ref port frame) s = .next (answered m (answerTo ref 0x0D r) t) :=
  congrArg Host.Outcome.next (arrive_of_handle (req := .hold port frame) h ref rfl hr)

theorem exec_unhold_of_takable {m : Master} {s t : State} {r : Reply} {port : Byte} {frame : Half}
    (h : takable m s) (ref : Half) (hr : handleSetHold m false port frame (heard m s) = (t, r)) :
    exec (.unhold m ref port frame) s = .next (answered m (answerTo ref 0x0E r) t) :=
  congrArg Host.Outcome.next (arrive_of_handle (req := .unhold port frame) h ref rfl hr)

/-! ### RELEASE_KEEP (R119) -/

theorem handleReleaseKeep_line (port : Byte) (frame : Half) (s : State) :
    handleReleaseKeep .line port frame s = (s, refuse .wrongMaster) := rfl

theorem handleReleaseKeep_of_unnamed {s : State} {port : Byte} {frame : Half} (h : s.named port frame = none) :
    handleReleaseKeep .office port frame s = (s, refuse .notFound) := by
  simp [handleReleaseKeep, h]

theorem handleReleaseKeep_of_named {s : State} {port : Byte} {frame : Half} {n : Nat}
    (h : s.named port frame = some n) :
    handleReleaseKeep .office port frame s = (s.setRecord n { s.record n with keep := false }, doneWith []) := by
  simp [handleReleaseKeep, h, State.modRecord_eq]

theorem exec_releaseKeep_of_takable {m : Master} {s t : State} {r : Reply} {port : Byte} {frame : Half}
    (h : takable m s) (ref : Half) (hr : handleReleaseKeep m port frame (heard m s) = (t, r)) :
    exec (.releaseKeep m ref port frame) s = .next (answered m (answerTo ref 0x0F r) t) :=
  congrArg Host.Outcome.next (arrive_of_handle (req := .releaseKeep port frame) h ref rfl hr)

/-- Settles O39: HOLD and UNHOLD through the one rule `handleSetHold`, RELEASE_KEEP by its master; a line request finds
the record and the map as they stood before it was heard. -/
theorem holdsAndKeepReleases : Obligations.HoldsAndKeepReleases := by
  refine fun s m ref port frame htake =>
    ⟨fun hnone => ?notFound, fun hline => ?wrongMaster, fun k n r hport hentry hr => ?named⟩
  case notFound =>
    have hname : (heard m s).named port frame = none := by rw [heard_named]; exact named_eq_none hnone
    refine ⟨exec_hold_of_takable htake ref (handleSetHold_of_unnamed hname m true),
      exec_unhold_of_takable htake ref (handleSetHold_of_unnamed hname m false), fun hoffice => ?_⟩
    subst hoffice
    exact exec_releaseKeep_of_takable htake ref (handleReleaseKeep_of_unnamed hname)
  case wrongMaster =>
    subst hline
    exact exec_releaseKeep_of_takable htake ref (handleReleaseKeep_line ..)
  case named =>
    have hname : (heard m s).named port frame = some n := by rw [heard_named]; exact named_eq_some hport hentry
    obtain rfl : r = (heard m s).record n := by rw [heard_record]; exact hr
    refine ⟨exec_hold_of_takable htake ref (handleSetHold_of_named hname m true),
      exec_unhold_of_takable htake ref (handleSetHold_of_named hname m false), fun hoffice => ?_⟩
    subst hoffice
    exact exec_releaseKeep_of_takable htake ref (handleReleaseKeep_of_named hname)

end Sys2Proof.Machine
end

section
/-! PROOFS. Settings read back after a write that is taken: the value read is the one `storedValue` names (R144, R176). -/

namespace Sys2Proof.Machine

/-! ### Values as they travel (R176) -/

theorem wordOf_toNat (v : Word) : wordOf v.toNat = v := by simp [wordOf]

theorem setWidth_setWidth_8 (v : Word) : (v.setWidth 8).setWidth 32 = v &&& 0xFF := by
  ext i hi; interval_cases i <;> simp

theorem setWidth_setWidth_7 (v : Word) : (v.setWidth 7).setWidth 32 = v &&& 0x7F := by
  ext i hi; interval_cases i <;> simp

/-- A bit of two bytes, the first of which is the high one (R167). -/
theorem getElem_bytes (a b : Byte) {i : Nat} (hi : i < 16) :
    (a ++ b : Half)[i] = if h : i < 8 then b[i] else a[i - 8] := BitVec.getElem_append hi

theorem Setting.lt_of_enumSize {x : Setting} {n : Nat} (hx : x.enumSize = some n) {v : Word}
    (hv : x.badValue v = false) : v.toNat < n := by
  simpa [Setting.badValue, hx] using hv

/-- A value inside an enumeration's set is the position it names. -/
theorem wordOf_position {n : Nat} (hn : 0 < n) {v : Word} (hv : v.toNat < n) : wordOf (position n hn v).val = v := by
  simp [position, Nat.mod_eq_of_lt hv, wordOf_toNat]

theorem eq_zero_or_one {v : Word} (hv : v.toNat < 2) : v = 0 ∨ v = 1 := by
  bv_omega

theorem wordOf_onOffCode {v : Word} (hv : v.toNat < 2) : wordOf (onOffCode (decide (v = 0))) = v := by
  rcases eq_zero_or_one hv with rfl | rfl <;> rfl

theorem wordOf_bitCode {v : Word} (hv : v.toNat < 2) : wordOf (bitCode (decide (v ≠ 0))) = v := by
  rcases eq_zero_or_one hv with rfl | rfl <;> rfl

theorem TripMode.code_ofCode {n : Nat} (hn : n < 5) : (TripMode.ofCode n).code = n := by
  interval_cases n <;> rfl

theorem DamagedPolicy.code_ofCode {n : Nat} (hn : n < 3) : (DamagedPolicy.ofCode n).code = n := by
  interval_cases n <;> rfl

theorem Verdict.code_ofCode {n : Nat} (hn : n < 3) : (Verdict.ofCode n).code = n := by
  interval_cases n <;> rfl

/-! ### Camera-port settings -/

theorem sup_darkWarmupEnded (k j : Port) (s : State) : (darkWarmupEnded k s).sup j = s.sup j := by
  unfold darkWarmupEnded; split <;> rfl

/-- Enabling takes the port out of DISABLED: into WARMUP or RUN (R66). -/
theorem state_enablePort_ne_disabled (k : Port) (s : State) : ((enablePort k s).sup k).state ≠ .disabled := by
  unfold enablePort; split <;> simp [enterWarmup]

/-- After a write of enable the port is DISABLED exactly if 0 was written (R66). -/
theorem state_writeEnable (k : Port) (v : Word) (s : State) :
    ((writeEnable k v s).sup k).state = .disabled ↔ v = 0 := by
  have hdisable : ((disablePort k s).sup k).state = .disabled := by rw [(disablePort_spec k s).1]
  have henable := state_enablePort_ne_disabled k s
  unfold writeEnable
  by_cases hv : v = 0
  · by_cases hs : (s.sup k).state = .disabled <;> simp [hv, hs, hdisable]
  · rw [if_neg hv]
    by_cases hs : (s.sup k).state = .disabled <;> simp only [hs, hv, henable, if_true, if_false]

/-- Warm-up armed after its write: 0 is always taken, 1 only while DISABLED (R67). -/
theorem warmupArmed_writeWarmupArmed (k : Port) (v : Word) (s : State) :
    ((writeWarmupArmed k v s).sup k).warmupArmed =
      if v = 0 then false else if (s.sup k).state = .disabled then true else (s.sup k).warmupArmed := by
  unfold writeWarmupArmed
  by_cases hv : v = 0
  · by_cases hw : (s.sup k).state = .warmup <;> simp [hv, hw, endWarmup, sup_darkWarmupEnded]
  · rw [if_neg hv, if_neg hv]
    by_cases hs : (s.sup k).state = .disabled <;> simp [hs]

theorem readPortSetting_writePortSetting (k : Port) (f : PortSetting) {v : Word} (s : State)
    (hv : (Setting.port k f).badValue v = false) :
    readPortSetting (writePortSetting k f v s) k f = storedValue (.port k f) v s := by
  have henum := fun n (hn : (Setting.port k f).enumSize = some n) => Setting.lt_of_enumSize hn hv
  cases f with
  | enable =>
    simp only [readPortSetting, writePortSetting, ne_eq, state_writeEnable]
    exact wordOf_bitCode (henum _ rfl)
  | warmupArmed =>
    simp only [readPortSetting, writePortSetting, warmupArmed_writeWarmupArmed, storedValue]
    split
    · rfl
    · split <;> rfl
  | warmupLength | deglitch | throttleTimeout | decimation =>
    simp [readPortSetting, writePortSetting, storedValue, wordOf_position _ (henum _ rfl)]
  | tripThreshold => simp [readPortSetting, writePortSetting, storedValue]
  | tripMode => simp [readPortSetting, writePortSetting, storedValue, TripMode.code_ofCode (henum _ rfl), wordOf_toNat]
  | damagedPolicy =>
    simp [readPortSetting, writePortSetting, storedValue, DamagedPolicy.code_ofCode (henum _ rfl), wordOf_toNat]
  | triggerDelay => simp [readPortSetting, writePortSetting, storedValue]

/-! ### Channel settings -/

theorem Channel.target_writeTarget (c : Channel) (t : Nat) : (c.writeTarget t).target = t := by
  unfold Channel.writeTarget
  dsimp only
  split
  · exact Eq.symm ‹_›
  · split
    · rfl
    · split <;> rfl

theorem Channel.slewCode_writeSlewCode (c : Channel) (code : Fin 8) : (c.writeSlewCode code).slewCode = code := by
  unfold Channel.writeSlewCode
  dsimp only
  split <;> rfl

/-- A target write reaches the channel; the blanking it starts is the supervisor's (R70). -/
theorem chan_writeTarget (c : Chan) (v : Word) (s : State) :
    (writeTarget c v s).chan c = (s.chan c).writeTarget (min v.toNat (gradeMaximum s.link.grade)) := by
  unfold writeTarget
  cases portOf c <;> simp [startBlanking]

theorem readChanSetting_writeChanSetting (c : Chan) (f : ChanSetting) {v : Word} (s : State)
    (hv : (Setting.chan c f).badValue v = false) :
    readChanSetting (writeChanSetting c f v s) c f = storedValue (.chan c f) v s := by
  have henum := fun n (hn : (Setting.chan c f).enumSize = some n) => Setting.lt_of_enumSize hn hv
  cases f with
  | target => simp [readChanSetting, writeChanSetting, storedValue, chan_writeTarget, Channel.target_writeTarget]
  | startRate => simp [readChanSetting, writeChanSetting, storedValue]
  | ceiling => simp [readChanSetting, writeChanSetting, storedValue, Channel.writeCeiling]
  | window => simp [readChanSetting, writeChanSetting, storedValue, Channel.writeWindow]
  | slewCode =>
    simp [readChanSetting, writeChanSetting, storedValue, Channel.slewCode_writeSlewCode,
      wordOf_position _ (henum _ rfl)]
  | asymmetric =>
    simp only [readChanSetting, writeChanSetting, storedValue, State.chan_modChan, Channel.writeAsymmetric]
    exact wordOf_onOffCode (henum _ rfl)
  | surplusEnable =>
    simp only [readChanSetting, writeChanSetting, storedValue, State.chan_modChan]
    exact wordOf_onOffCode (henum _ rfl)

/-! ### Masks -/

/-- A new dark pass leaves the dark mask as it stands (R83). -/
theorem mask_startDarkPass (s : State) : (startDarkPass s).dark.mask = s.dark.mask := by
  rw [startDarkPass, visitPorts_eq]
  unfold nextVisit
  split
  · rfl
  · split <;> rfl

theorem maskOf_writeMask (whose : Master) (field : Fin 9) (v : Word) (s : State) :
    maskOf (writeMask whose field v s) whose = (maskOf s whose).writeMask field v := by
  cases whose <;> rfl

/-- The global field of a mask keeps the bits that are flags: its high byte is byte 0 of the flag layout (R172). -/
theorem maskWord_writeMask_global (f : FlagSet) (v : Word) : maskWord (f.writeMask 0 v) 0 = v &&& 0xFF03 := by
  refine BitVec.eq_of_getLsbD_eq fun i hi => ?_
  interval_cases i <;>
    simp [maskWord, FlagSet.writeMask, FlagSet.globalBytes, byteAt, getElem_bytes]

theorem maskWord_writeMask_port (f : FlagSet) {field : Fin 9} (hfield : field ≠ 0) (v : Word) :
    maskWord (f.writeMask field v) field = v &&& 0x7F := by
  have hval : field.val ≠ 0 := fun h => hfield (Fin.ext h)
  simp [maskWord, FlagSet.writeMask, FlagSet.portByte, hval, setWidth_setWidth_7]

/-! ### Every setting -/

/-- A setting that took a write reads as the value stored. -/
theorem readSetting_writeSetting {x : Setting} {v : Word} (hv : x.badValue v = false) (s : State) :
    readSetting (writeSetting x v s) x = storedValue x v s := by
  have henum := fun n (hn : x.enumSize = some n) => Setting.lt_of_enumSize hn hv
  cases x with
  | port k f => exact readPortSetting_writePortSetting k f s hv
  | chan c f => exact readChanSetting_writeChanSetting c f s hv
  | evictSent => exact wordOf_onOffCode (henum _ rfl)
  | deadline => rfl
  | defaultVerdict => simp [readSetting, writeSetting, storedValue, Verdict.code_ofCode (henum _ rfl), wordOf_toNat]
  | pinMask n => simp [readSetting, writeSetting, storedValue, setWidth_setWidth_8]
  | faultCode | lineWatchdog | darkTestTime => exact wordOf_position (by decide) (henum _ rfl)
  | darkMask => simp [readSetting, writeSetting, storedValue, mask_startDarkPass, setWidth_setWidth_8]
  | mask whose field =>
    simp only [readSetting, writeSetting, storedValue, maskOf_writeMask]
    split
    · subst field; exact maskWord_writeMask_global ..
    · exact maskWord_writeMask_port _ ‹_› v

end Sys2Proof.Machine
end

section
/-! PROOFS. Requests under a lock: LOCK_READ and WRITE_UNLOCK (chapter 8). -/

namespace Sys2Proof.Machine

/-! ### LOCK_READ, in the order of R150 -/

theorem unbarred_heard {m : Master} {l : Fin 13} {s : State} (h : unbarred m l s) : unbarred m l (heard m s) := by
  simpa [unbarred] using h

theorem handleLockRead_of_le {m : Master} {record field : Byte} {s : State} (h : 13 ≤ record.toNat) :
    handleLockRead m record field s = (s, refuse .noSuchRecord) := by
  simp [handleLockRead, lockableRecord_of_le h]

section LockableRecord

variable {m : Master} {record field : Byte} {l : Fin 13} {s : State}

/-- A lockable record exists, so that a field it does not have is NO_SUCH_FIELD. -/
theorem resolveField_of_lockable (hl : record.toNat = l.val) (hf : ∀ f, resolveField record field ≠ .ok f) :
    resolveField record field = .error .noSuchField :=
  resolveField_of_lt (by omega) hf

theorem handleLockRead_of_noField (hl : record.toNat = l.val) (hf : resolveField record field = .error .noSuchField) :
    handleLockRead m record field s = (s, refuse .noSuchField) := by
  simp [handleLockRead, lockableRecord_of_eq hl, hf]

variable {f : FieldRef}

theorem handleLockRead_of_locked (hl : record.toNat = l.val) (hf : resolveField record field = .ok f)
    (hlocked : ∃ e, s.lock l = some e ∧ e.holder ≠ m) : handleLockRead m record field s = (s, retry) := by
  obtain ⟨e, he, hm⟩ := hlocked
  have hother : lockedByOther m record s = true := (lockedByOther_iff ..).mpr ⟨l, e, hl, he, hm⟩
  simp [handleLockRead, lockableRecord_of_eq hl, hf, hother]

/-- The field is read in the device as the grant or the renewal leaves it. -/
theorem handleLockRead_of_unbarred (hl : record.toNat = l.val) (hf : resolveField record field = .ok f)
    (hfree : unbarred m l s) :
    handleLockRead m record field s =
      (s.setLock l (some { holder := m, remaining := 50000 }),
        doneWith (be32 (readField (s.setLock l (some { holder := m, remaining := 50000 })) f))) := by
  simp only [handleLockRead, lockableRecord_of_eq hl, hf, lockedByOther_of_unbarred hl hfree]
  rfl

end LockableRecord

theorem exec_lockRead_of_takable {m : Master} {s t : State} {r : Reply} {record field : Byte} (h : takable m s)
    (ref : Half) (hr : handleLockRead m record field (heard m s) = (t, r)) :
    exec (.lockRead m ref record field) s = .next (answered m (answerTo ref 0x03 r) t) :=
  congrArg Host.Outcome.next (arrive_of_handle (req := .lockRead record field) h ref rfl hr)

/-- Settles O50: each step of R150 by the lemma about `handleLockRead` that names it. -/
theorem lockReadGrantsOrRenews : Obligations.LockReadGrantsOrRenews := by
  refine fun s m ref record field htake => ⟨fun hrecord => ?noRecord, fun l hl => ⟨fun hnone => ?noField, fun f hf =>
    ⟨fun hlocked => ?retry, fun t ht hfree => ?granted⟩⟩⟩
  case noRecord => exact exec_lockRead_of_takable htake ref (handleLockRead_of_le hrecord)
  case noField =>
    exact exec_lockRead_of_takable htake ref (handleLockRead_of_noField hl (resolveField_of_lockable hl hnone))
  case retry =>
    exact exec_lockRead_of_takable htake ref (handleLockRead_of_locked hl hf (by simpa using hlocked))
  case granted =>
    subst ht
    exact exec_lockRead_of_takable htake ref (handleLockRead_of_unbarred hl hf (unbarred_heard hfree))

/-! ### The tests of a value (R146 steps 6 and 7) -/

@[simp] theorem targetBarred_heard (x : Setting) (m : Master) (s : State) :
    targetBarred x (heard m s) = targetBarred x s := by
  rw [Bool.eq_iff_iff, targetBarred_iff, targetBarred_iff]
  simp only [heard_sup]

theorem valueRefused_of_badValue {x : Setting} {v : Word} (h : x.badValue v = true) (s : State) :
    valueRefused x v s = some .badValue := by
  simp [valueRefused, h]

theorem valueRefused_of_targetBarred {x : Setting} {v : Word} {s : State} (h : x.badValue v = false)
    (hbar : targetBarred x s = true) : valueRefused x v s = some .portTripped := by
  simp [valueRefused, h, hbar]

theorem valueRefused_of_unbarred {x : Setting} {v : Word} {s : State} (h : x.badValue v = false)
    (hbar : targetBarred x s = false) : valueRefused x v s = none := by
  simp [valueRefused, h, hbar]

/-! ### WRITE_UNLOCK, in the order of R152 -/

theorem handleWriteUnlock_of_le {m : Master} {record field : Byte} {v : Word} {s : State} (h : 13 ≤ record.toNat) :
    handleWriteUnlock m record field v s = (s, refuse .noSuchRecord) := by
  simp [handleWriteUnlock, lockableRecord_of_le h]

section LockableRecord

variable {m : Master} {record field : Byte} {v : Word} {l : Fin 13} {s : State}

theorem handleWriteUnlock_of_noField (hl : record.toNat = l.val)
    (hf : resolveField record field = .error .noSuchField) :
    handleWriteUnlock m record field v s = (s, refuse .noSuchField) := by
  simp [handleWriteUnlock, lockableRecord_of_eq hl, hf]

theorem handleWriteUnlock_of_not_held {f : FieldRef} (hl : record.toNat = l.val)
    (hf : resolveField record field = .ok f) (hheld : ¬lockHeldBy m l s = true) :
    handleWriteUnlock m record field v s = (s, late) := by
  simp [handleWriteUnlock, lockableRecord_of_eq hl, hf, hheld]

theorem handleWriteUnlock_of_status {x : StatusField} (hl : record.toNat = l.val)
    (hf : resolveField record field = .ok (.status x)) (hheld : lockHeldBy m l s = true) :
    handleWriteUnlock m record field v s = (s, refuse .readOnly) := by
  simp [handleWriteUnlock, lockableRecord_of_eq hl, hf, hheld]

variable {x : Setting}

theorem handleWriteUnlock_of_refused {r : Reason} (hl : record.toNat = l.val)
    (hf : resolveField record field = .ok (.setting x)) (hheld : lockHeldBy m l s = true)
    (hv : valueRefused x v s = some r) : handleWriteUnlock m record field v s = (s, refuse r) := by
  simp [handleWriteUnlock, lockableRecord_of_eq hl, hf, hheld, hv]

/-- A taken write is answered with the value read back from the device it leaves, which is the value stored. -/
theorem handleWriteUnlock_of_taken (hl : record.toNat = l.val) (hf : resolveField record field = .ok (.setting x))
    (hheld : lockHeldBy m l s = true) (hv : x.badValue v = false) (hbar : targetBarred x s = false) :
    handleWriteUnlock m record field v s =
      ((writeSetting x v s).setLock l none, doneWith (be32 (storedValue x v s))) := by
  simp [handleWriteUnlock, lockableRecord_of_eq hl, hf, hheld, valueRefused_of_unbarred hv hbar,
    readSetting_writeSetting hv]

end LockableRecord

theorem exec_writeUnlock_of_takable {m : Master} {s t : State} {r : Reply} {record field : Byte} {v : Word}
    (h : takable m s) (ref : Half) (hr : handleWriteUnlock m record field v (heard m s) = (t, r)) :
    exec (.writeUnlock m ref record field v) s = .next (answered m (answerTo ref 0x04 r) t) :=
  congrArg Host.Outcome.next (arrive_of_handle (req := .writeUnlock record field v) h ref rfl hr)

/-- Settles O51: each step of R152 by the lemma about `handleWriteUnlock` that names it; a line request finds the lock and
the supervisors as they stood before it was heard. -/
theorem writeUnlockWritesAndReleases : Obligations.WriteUnlockWritesAndReleases := by
  intro s m ref record field v htake
  refine ⟨fun hrecord => ?noRecord, fun l hl => ?lockable⟩
  case noRecord => exact exec_writeUnlock_of_takable htake ref (handleWriteUnlock_of_le hrecord)
  case lockable =>
    have hlock : lockHeldBy m l (heard m s) = true ↔ ∃ e, s.lock l = some e ∧ e.holder = m := by
      rw [lockHeldBy_iff, heard_lock]
    refine ⟨fun hnone => ?noField, fun f hf hfree => ?late, fun x hf hheld => ?readOnly, fun x hf hheld =>
      ⟨fun hbad => ?badValue, fun hok hbar => ?portTripped, fun hok hbar => ?taken⟩⟩
    case noField =>
      exact exec_writeUnlock_of_takable htake ref (handleWriteUnlock_of_noField hl (resolveField_of_lockable hl hnone))
    case late => exact exec_writeUnlock_of_takable htake ref (handleWriteUnlock_of_not_held hl hf (mt hlock.mp hfree))
    case readOnly => exact exec_writeUnlock_of_takable htake ref (handleWriteUnlock_of_status hl hf (hlock.mpr hheld))
    case badValue =>
      exact exec_writeUnlock_of_takable htake ref
        (handleWriteUnlock_of_refused hl hf (hlock.mpr hheld) (valueRefused_of_badValue hbad _))
    case portTripped =>
      have hbarred : targetBarred x (heard m s) = true := by
        rw [targetBarred_heard]; exact (targetBarred_iff x s).mpr hbar
      exact exec_writeUnlock_of_takable htake ref
        (handleWriteUnlock_of_refused hl hf (hlock.mpr hheld) (valueRefused_of_targetBarred hok hbarred))
    case taken =>
      have hclear : targetBarred x (heard m s) = false := by
        rw [targetBarred_heard]; exact Bool.eq_false_iff.mpr (mt (targetBarred_iff x s).mp hbar)
      exact exec_writeUnlock_of_takable htake ref (handleWriteUnlock_of_taken hl hf (hlock.mpr hheld) hok hclear)

end Sys2Proof.Machine
end

section
/-! PROOFS. Setting events with ATTN and the notice-pending set, CLEAR_EVENTS and READ_COUNTS (chapter 9). -/

namespace Sys2Proof.Machine

/-! ### A setting event (R158) -/

@[simp] theorem Events.maskLine_raise (u : Events) (e : Event) : (u.raise e).maskLine = u.maskLine := rfl
@[simp] theorem Events.maskOffice_raise (u : Events) (e : Event) : (u.raise e).maskOffice = u.maskOffice := rfl
@[simp] theorem Events.portCounts_raise (u : Events) (e : Event) : (u.raise e).portCounts = u.portCounts := rfl
@[simp] theorem Events.globalCounts_raise (u : Events) (e : Event) : (u.raise e).globalCounts = u.globalCounts := rfl

theorem Events.has_flags_raise (u : Events) (e d : Event) :
    (u.raise e).flags.has d = (u.flags.has d || decide (d = e)) :=
  FlagSet.has_insert ..

/-- Only the flag set can join the notice-pending set, and only if the office does not mask it (R163). -/
theorem Events.has_noticePending_raise (u : Events) (e d : Event) :
    (u.raise e).noticePending.has d = (u.noticePending.has d || decide (d = e) && !u.maskOffice.has e) := by
  cases h : u.maskOffice.has e <;> simp [Events.raise, h, FlagSet.has_insert]

/-- ATTN is low exactly while the line does not mask some flag that is SET (R162). -/
theorem State.attnLow_iff (s : State) :
    s.attnLow = true ↔ ∃ d, s.events.flags.has d = true ∧ s.events.maskLine.has d = false := by
  simp [State.attnLow, FlagSet.nonempty_iff, FlagSet.has_without]

/-- Settles O53: the event unit after a setting event is `Events.raise`, for a global flag and for a port's alike. -/
theorem settingEventLatches : Obligations.SettingEventLatches := by
  intro s t e ht
  have hevents : t.events = s.events.raise e := by subst ht; cases e <;> rfl
  have hflags (d : Event) : t.events.flags.has d = (s.events.flags.has d || decide (d = e)) := by
    rw [hevents, Events.has_flags_raise]
  have hnotice (d : Event) : t.events.noticePending.has d =
      (s.events.noticePending.has d || decide (d = e) && !s.events.maskOffice.has e) := by
    rw [hevents, Events.has_noticePending_raise]
  have hset : t.events.flags.has e = true := by simp [hflags]
  have hline : t.events.maskLine = s.events.maskLine := by simp [hevents]
  refine ⟨hset, fun d hd => ?others, fun hm => ?attn, fun hm => ?joins, fun hm => ?masked, fun d hd => ?otherNotices,
    t.attnLow_iff, hline, by simp [hevents], by simp [hevents], by simp [hevents]⟩
  case others => simp [hflags, hd]
  case attn => exact t.attnLow_iff.mpr ⟨e, hset, by rw [hline, hm]⟩
  case joins => simp [hnotice, hm]
  case masked => simp [hnotice, hm]
  case otherNotices => simp [hnotice, hd]

/-! ### The flags that bytes name (R172) -/

theorem FlagSet.has_ofBytes_global (bytes : List Byte) (g : GlobalEvent) :
    (FlagSet.ofBytes bytes).has (.global g) = (byteAt bytes (g.bit / 8)).getLsbD (g.bit % 8) := by
  have hlt := g.bit_lt
  simp only [FlagSet.has, FlagSet.ofBytes, BitVec.getLsbD_setWidth, BitVec.getLsbD_append, hlt, decide_true,
    Bool.true_and]
  by_cases hbyte : g.bit < 8
  · rw [if_pos hbyte, Nat.div_eq_of_lt hbyte, Nat.mod_eq_of_lt hbyte]
  · rw [if_neg hbyte, show g.bit / 8 = 1 by omega, show g.bit % 8 = g.bit - 8 by omega]

theorem FlagSet.has_ofBytes_port (bytes : List Byte) (p : PortEvent) (k : Port) :
    (FlagSet.ofBytes bytes).has (.port p k) = (byteAt bytes (2 + k.val)).getLsbD p.bit := by
  simp [FlagSet.has, FlagSet.ofBytes, p.bit_lt]

/-! ### CLEAR_EVENTS (R159) -/

theorem exec_clearEvents_of_takable {m : Master} {s : State} (h : takable m s) (ref : Half) (bytes : List Byte) :
    exec (.clearEvents m ref bytes) s = .next (answered m (doneAnswer 0x10 ref [])
      { heard m s with events := { s.events with flags := s.events.flags.without (.ofBytes bytes) } }) := by
  rw [← heard_events m s]
  exact congrArg Host.Outcome.next (arrive_of_handle (req := .clearEvents bytes) h ref rfl rfl)

/-! ### The counts as they are answered (section 9.6) -/

/-- The global counts in the order of their table. -/
def GlobalCount.table : List GlobalCount :=
  [.cellsRecall, .corrected, .uncorrectable, .evictions, .shotOverflows, .verdictsLate, .linkRecovered,
    .officeAnswersLost]

/-- The per-port counts in the order of their table. -/
def PortCount.table : List PortCount :=
  [.framesOpened, .framesCompleted, .framesDamaged, .discardedPolicy, .discardedState, .refused, .oversize,
    .heldThrottle, .queueFull, .promoteFailed, .overrunLines, .stray, .triggersMissed, .cellsLive, .freeRun]

theorem GlobalCount.map_idx_table : GlobalCount.table.map GlobalCount.idx = List.finRange 8 := by decide

theorem PortCount.map_idx_table : PortCount.table.map PortCount.idx = List.finRange 15 := by decide

theorem toList_eq_map_finRange {α : Type} {n : Nat} (v : Vector α n) :
    v.toList = (List.finRange n).map fun i => v[i] :=
  List.ext_getElem (by simp) (by simp)

theorem State.globalCountBytes_eq (s : State) :
    s.globalCountBytes = GlobalCount.table.flatMap fun c => be32 (s.globalCount c) := by
  rw [State.globalCountBytes, toList_eq_map_finRange, ← GlobalCount.map_idx_table, List.map_map, List.flatMap_map]
  rfl

theorem State.portCountBytes_eq (s : State) (k : Port) :
    s.portCountBytes k = PortCount.table.flatMap fun c => be32 (s.portCount k c) := by
  rw [State.portCountBytes, toList_eq_map_finRange, ← PortCount.map_idx_table, List.map_map, List.flatMap_map]
  rfl

@[simp] theorem heard_globalCount (m : Master) (s : State) (c : GlobalCount) :
    (heard m s).globalCount c = s.globalCount c := by simp [State.globalCount]

@[simp] theorem heard_portCount (m : Master) (s : State) (k : Port) (c : PortCount) :
    (heard m s).portCount k c = s.portCount k c := by simp [State.portCount]

/-! ### READ_COUNTS, by scope (R166) -/

theorem handleReadCounts_global (s : State) :
    handleReadCounts 0 s =
      (s, doneWith ((GlobalCount.table.flatMap fun c => be32 (s.globalCount c)) ++ s.events.flags.globalBytes)) := by
  rw [handleReadCounts, if_pos rfl, State.globalCountBytes_eq]

theorem handleReadCounts_port {scope : Byte} {k : Port} (h : scope.toNat = k.val + 1) (s : State) :
    handleReadCounts scope s =
      (s, doneWith ((PortCount.table.flatMap fun c => be32 (s.portCount k c)) ++ [s.events.flags.portByte k])) := by
  have hport : (scope - 1).toNat = k.val := by bv_omega
  have hscope : scope ≠ 0 := by bv_omega
  simp only [handleReadCounts, if_neg hscope, portOfByte_of_eq hport, State.portCountBytes_eq]

theorem handleReadCounts_of_le {scope : Byte} (h : 9 ≤ scope.toNat) (s : State) :
    handleReadCounts scope s = (s, refuse .badValue) := by
  have hport : 8 ≤ (scope - 1).toNat := by bv_omega
  have hscope : scope ≠ 0 := by bv_omega
  simp only [handleReadCounts, if_neg hscope, portOfByte_of_le hport]

theorem exec_readCounts_of_takable {m : Master} {s t : State} {r : Reply} {scope : Byte} (h : takable m s) (ref : Half)
    (hr : handleReadCounts scope (heard m s) = (t, r)) :
    exec (.readCounts m ref scope) s = .next (answered m (answerTo ref 0x12 r) t) :=
  congrArg Host.Outcome.next (arrive_of_handle (req := .readCounts scope) h ref rfl hr)

/-- Settles O54: CLEAR_EVENTS takes out the flags its bytes name; each scope of R166 by the lemma about
`handleReadCounts` that names it, a line request finding the counts as they stood before it was heard. -/
theorem clearEventsAndReadCounts : Obligations.ClearEventsAndReadCounts := by
  refine ⟨fun s m ref bytes htake => ?clear, fun s m ref scope htake =>
    ⟨fun hglobal => ?global, fun k hport => ?port, fun hout => ?outside⟩⟩
  case clear =>
    refine ⟨_, exec_clearEvents_of_takable htake ref bytes, fun g => ?_, fun p k => ?_⟩
    · rw [FlagSet.has_without, FlagSet.has_ofBytes_global]
    · rw [FlagSet.has_without, FlagSet.has_ofBytes_port]
  case global =>
    subst hglobal
    rw [exec_readCounts_of_takable htake ref (handleReadCounts_global _)]
    simp only [heard_globalCount, heard_events]
    rfl
  case port =>
    rw [exec_readCounts_of_takable htake ref (handleReadCounts_port hport _)]
    simp only [heard_portCount, heard_events]
    rfl
  case outside => exact exec_readCounts_of_takable htake ref (handleReadCounts_of_le hout _)

end Sys2Proof.Machine
end

section
/-! PROOFS. READ (section 8.4): what number every field carries, and that a request that names a field reads it (R145,
R175, R176). -/

namespace Sys2Proof.Machine

/-! ### Values that the model computes otherwise than `fieldNumber` does -/

theorem bitCode_ne_disabled (u : SupState) : bitCode (u ≠ .disabled) = if u = .disabled then 0 else 1 := by
  cases u <;> rfl

theorem queueLength_eq (s : State) (c : Chan) :
    queueLength s c = if h : c.val < 8 then (s.liveQueue ⟨c.val, h⟩).length else s.recalls.queue.length := by
  unfold queueLength portOf
  by_cases h : c.val < 8 <;> simp [h]

theorem currentFrameWord_eq (s : State) (c : Chan) :
    currentFrameWord s c = wordOf (match (s.chan c).current with
      | none => 0xFFFFFFFF
      | some n => 65536 * (s.record n).port.val + (s.record n).frame.toNat) := by
  unfold currentFrameWord
  cases (s.chan c).current <;> rfl

/-- A number of two bytes, the first of which is the high one (R167). -/
theorem toNat_bytes (a b : Byte) : (a ++ b : Half).toNat = 256 * a.toNat + b.toNat := by
  rw [BitVec.toNat_append, ← Nat.shiftLeft_add_eq_or_of_lt b.isLt, Nat.shiftLeft_eq, Nat.mul_comm]

/-- Flags 0 to 7 stand in the upper byte of a mask's global field, flags 8 and 9 in the lower (R172). -/
theorem maskWord_global (f : FlagSet) :
    maskWord f 0 = wordOf (256 * (f.global.toNat % 256) + f.global.toNat / 256) := by
  have hhigh : (byteAt f.globalBytes 0).toNat = f.global.toNat % 256 := by simp [FlagSet.globalBytes, byteAt]
  have hlow : (byteAt f.globalBytes 1).toNat = f.global.toNat / 256 := by
    have hlt := f.global.isLt
    simp [FlagSet.globalBytes, byteAt, Nat.shiftRight_eq_div_pow]
    omega
  rw [← hhigh, ← hlow, ← toNat_bytes, ← setWidth_eq_wordOf]
  rfl

theorem maskWord_port (f : FlagSet) (k : Port) : maskWord f k.succ = wordOf f.ports[k].toNat := by
  simp [maskWord, FlagSet.portByte, setWidth_eq_wordOf]

/-! ### The numbers of each record's fields (R175)

A record's table of numbers lists the fields that its decoder lists, and the number at each is the value read there. -/

/-- The fields that CH0 to CH8 have alike. -/
def sharedFieldOf (c : Chan) (field : Nat) : Option FieldRef :=
  ((chanSettingOf field).map fun f => .setting (.chan c f)).or ((chanStatusOf field).map fun f => .status (.chan c f))

/-- The fields that CH0 to CH7 have as camera ports. -/
def cameraFieldOf (k : Port) (field : Nat) : Option FieldRef :=
  ((portSettingOf field).map fun f => .setting (.port k f)).or ((portStatusOf field).map fun f => .status (.port k f))

theorem chanFieldOf_eq (c : Chan) (field : Nat) :
    chanFieldOf c field = (sharedFieldOf c field).or ((portOf c).bind fun k => cameraFieldOf k field) := by
  unfold chanFieldOf sharedFieldOf cameraFieldOf
  cases chanSettingOf field with
  | some f => rfl
  | none => cases chanStatusOf field with
    | some f => rfl
    | none => cases portOf c with
      | none => rfl
      | some k => cases portSettingOf field <;> cases portStatusOf field <;> rfl

theorem chanNumber_map_wordOf (s : State) (c : Chan) (field : Nat) :
    (chanNumber s c field).map wordOf = (sharedFieldOf c field).map (readField s) := by
  unfold chanNumber
  split
  -- 33H, queue length, and 34H, current frame
  case h_11 => exact congrArg (fun n => some (wordOf n)) (queueLength_eq s c).symm
  case h_12 => exact congrArg some (currentFrameWord_eq s c).symm
  case h_14 => simp [sharedFieldOf, chanSettingOf, chanStatusOf, *]
  all_goals rfl

theorem portNumber_map_wordOf (s : State) (k : Port) (field : Nat) :
    (portNumber s k field).map wordOf = (cameraFieldOf k field).map (readField s) := by
  unfold portNumber
  split
  -- 01H, enable; 28H to 2AH, which are bit vectors
  case h_1 => exact congrArg (fun n => some (wordOf n)) (bitCode_ne_disabled _).symm
  case h_19 | h_20 | h_21 => exact congrArg some (setWidth_eq_wordOf _).symm
  case h_22 => simp [cameraFieldOf, portSettingOf, portStatusOf, *]
  all_goals rfl

theorem storeNumber_map_wordOf (s : State) (field : Nat) :
    (storeNumber s field).map wordOf = (storeFieldOf field).map (readField s) := by
  unfold storeNumber
  split
  case h_9 => simp [storeFieldOf, *]
  all_goals rfl

theorem shotsNumber_map_wordOf (s : State) (field : Nat) :
    (shotsNumber s field).map wordOf = (shotsFieldOf field).map (readField s) := by
  unfold shotsNumber
  split
  -- the pin masks and the next shot number, which are bit vectors
  case h_3 | h_4 | h_5 | h_6 | h_8 => exact congrArg some (setWidth_eq_wordOf _).symm
  case h_9 => simp [shotsFieldOf, *]
  all_goals rfl

theorem linkNumber_map_wordOf (s : State) (field : Nat) :
    (linkNumber s field).map wordOf = (linkFieldOf field).map (readField s) := by
  unfold linkNumber
  split
  case h_9 => simp [linkFieldOf, *]
  all_goals rfl

theorem monitorNumber_map_wordOf (s : State) (field : Nat) :
    (monitorNumber s field).map wordOf = (monitorFieldOf field).map (readField s) := by
  unfold monitorNumber
  split
  -- 02H, dark mask, which is a bit vector
  case h_2 => exact congrArg some (setWidth_eq_wordOf _).symm
  case h_7 => simp [monitorFieldOf, *]
  all_goals rfl

theorem maskNumber_map_wordOf (s : State) (whose : Master) (field : Nat) :
    (maskNumber (maskOf s whose) field).map wordOf = (maskFieldOf whose field).map (readField s) := by
  match field with
  | 0 => rfl
  | 1 => exact congrArg some (maskWord_global _).symm
  | k + 2 =>
    by_cases hk : k < 8
    · have hnumber : maskNumber (maskOf s whose) (k + 2) = some (maskOf s whose).ports[k].toNat := by
        simp [maskNumber, show k + 2 < 10 by omega]
      have hfield : maskFieldOf whose (k + 2) = some (.setting (.mask whose (Fin.succ ⟨k, hk⟩))) := by
        simp [maskFieldOf, show k + 2 ≤ 9 by omega]
      rw [hnumber, hfield]
      exact congrArg some (maskWord_port _ ⟨k, hk⟩).symm
    · simp [maskNumber, maskFieldOf, show ¬k + 2 ≤ 9 by omega, show ¬k + 2 < 10 by omega]

/-! ### The field of a record and its number -/

/-- The two channel decoders together, channel 8 having no camera fields. -/
theorem fieldNumber_chan_map_wordOf (s : State) (c : Chan) {field : Nat} (h3E : field ≠ 0x3E) (h3F : field ≠ 0x3F) :
    (fieldNumber s c.val field).map wordOf = (chanFieldOf c field).map (readField s) := by
  have hlt : c.val < 13 := by omega
  rw [chanFieldOf_eq, Option.map_or, ← chanNumber_map_wordOf]
  by_cases hk : c.val < 8
  · rw [show portOf c = some ⟨c.val, hk⟩ from dif_pos hk, Option.bind_some, ← portNumber_map_wordOf]
    simp only [fieldNumber, hlt, h3E, h3F, hk, c.isLt, dite_true, if_false]
    cases chanNumber s c field <;> rfl
  · rw [show portOf c = none from dif_neg hk]
    simp [fieldNumber, hlt, h3E, h3F, hk]

/-- Apart from its lock's two fields, a lockable record has the fields of its own decoder. -/
theorem fieldNumber_own_map_wordOf (s : State) (l : Fin 13) {field : Nat} (h3E : field ≠ 0x3E) (h3F : field ≠ 0x3F) :
    (fieldNumber s l.val field).map wordOf = (lockableFieldOf l field).map (readField s) := by
  unfold lockableFieldOf
  by_cases hc : l.val < 9
  · rw [dif_pos hc]
    exact fieldNumber_chan_map_wordOf s ⟨l.val, hc⟩ h3E h3F
  · rw [dif_neg hc]
    obtain h | h | h | h : l.val = 9 ∨ l.val = 10 ∨ l.val = 11 ∨ l.val = 12 := by omega
    · simpa [fieldNumber, h, h3E, h3F] using storeNumber_map_wordOf s field
    · simpa [fieldNumber, h, h3E, h3F] using shotsNumber_map_wordOf s field
    · simpa [fieldNumber, h, h3E, h3F] using linkNumber_map_wordOf s field
    · simpa [fieldNumber, h, h3E, h3F] using monitorNumber_map_wordOf s field

theorem fieldNumber_lockHolder (s : State) (l : Fin 13) :
    fieldNumber s l.val 0x3E = some (holderCode (s.lock l)) := by
  simp only [fieldNumber, l.isLt, dite_true, if_true]
  rfl

theorem fieldNumber_lockRemaining (s : State) (l : Fin 13) :
    fieldNumber s l.val 0x3F = some (timerMs ((s.lock l).map Lock.remaining)) := by
  simp only [fieldNumber, l.isLt, dite_true]
  cases s.lock l <;> rfl

theorem fieldNumber_lockable_map_wordOf (s : State) (l : Fin 13) (field : Nat) :
    (fieldNumber s l.val field).map wordOf =
      ((lockFieldOf l field).or (lockableFieldOf l field)).map (readField s) := by
  unfold lockFieldOf
  split
  case h_1 => rw [fieldNumber_lockHolder]; rfl
  case h_2 => rw [fieldNumber_lockRemaining]; rfl
  case h_3 h3E h3F => exact fieldNumber_own_map_wordOf s l h3E h3F

theorem resolveField_toOption_of_lockable {record : Byte} {l : Fin 13} (hl : record.toNat = l.val) (field : Byte) :
    (resolveField record field).toOption = (lockFieldOf l field.toNat).or (lockableFieldOf l field.toNat) := by
  simp only [resolveField, lockableRecord_of_eq hl]
  cases lockFieldOf l field.toNat <;> cases lockableFieldOf l field.toNat <;> rfl

theorem resolveField_toOption_of_mask {record : Byte} {whose : Master} (hm : maskRecord record = some whose)
    (hr : 13 ≤ record.toNat) (field : Byte) :
    (resolveField record field).toOption = maskFieldOf whose field.toNat := by
  simp only [resolveField, lockableRecord_of_le hr, hm]
  cases maskFieldOf whose field.toNat <;> rfl

/-- The key fact: a request names a field exactly if the field has a number, and reading it gives that number. -/
theorem fieldNumber_map_wordOf (s : State) (record field : Byte) :
    (fieldNumber s record.toNat field.toNat).map wordOf =
      (resolveField record field).toOption.map (readField s) := by
  by_cases hl : record.toNat < 13
  · rw [resolveField_toOption_of_lockable (l := ⟨record.toNat, hl⟩) rfl]
    exact fieldNumber_lockable_map_wordOf s ⟨record.toNat, hl⟩ field.toNat
  · by_cases hm : record.toNat < 15
    · obtain h | h : record.toNat = 13 ∨ record.toNat = 14 := by omega
      · rw [resolveField_toOption_of_mask (whose := .line) (by simp [maskRecord, h]) (by omega), h]
        exact maskNumber_map_wordOf s .line field.toNat
      · rw [resolveField_toOption_of_mask (whose := .office) (by simp [maskRecord, h]) (by omega), h]
        exact maskNumber_map_wordOf s .office field.toNat
    · rw [resolveField_of_le (by omega)]
      simp [fieldNumber, hl, show record.toNat ≠ 13 by omega, show record.toNat ≠ 14 by omega, Except.toOption]

theorem fieldNumber_of_resolveField {record field : Byte} {f : FieldRef} (hf : resolveField record field = .ok f)
    (s : State) : ∃ v, fieldNumber s record.toNat field.toNat = some v ∧ readField s f = wordOf v := by
  have hkey := fieldNumber_map_wordOf s record field
  rw [hf] at hkey
  obtain ⟨v, hv, hread⟩ := Option.map_eq_some_iff.mp hkey
  exact ⟨v, hv, hread.symm⟩

theorem resolveField_of_fieldNumber {s : State} {record field : Byte} {v : Nat}
    (hv : fieldNumber s record.toNat field.toNat = some v) :
    ∃ f, resolveField record field = .ok f ∧ readField s f = wordOf v := by
  have hkey := fieldNumber_map_wordOf s record field
  rw [hv] at hkey
  cases hf : resolveField record field with
  | error r => rw [hf] at hkey; exact nomatch hkey
  | ok f => rw [hf] at hkey; exact ⟨f, rfl, (Option.some.inj hkey).symm⟩

theorem resolveField_ne_ok_of_fieldNumber {s : State} {record field : Byte}
    (hnone : fieldNumber s record.toNat field.toNat = none) (f : FieldRef) : resolveField record field ≠ .ok f := by
  intro hf
  obtain ⟨v, hv, -⟩ := fieldNumber_of_resolveField hf s
  rw [hnone] at hv
  exact nomatch hv

/-! ### Records counted over the catalogue (R64) -/

theorem heldCount_eq_length {s : State} {l : List Nat} (hs : Table.wf FrameRecord.blank s.store.catalogue)
    (hl : l.Nodup) (hm : ∀ n, n ∈ l ↔ (s.record n).state = .held) : heldCount s = l.length :=
  Table.filter_length_eq hs (p := fun r => r.state = .held) rfl hl fun n => (hm n).trans decide_eq_true_iff.symm

theorem evictableCount_eq_length {s : State} {l : List Nat} (hs : Table.wf FrameRecord.blank s.store.catalogue)
    (hl : l.Nodup) (hm : ∀ n, n ∈ l ↔ (s.record n).evictable s.store.evictSent = true) :
    evictableCount s = l.length :=
  Table.filter_length_eq hs (p := fun r => r.evictable s.store.evictSent) rfl hl hm

/-! ### READ, in the order of R145 -/

theorem handleRead_of_error {record field : Byte} {r : Reason} (h : resolveField record field = .error r) (s : State) :
    handleRead record field s = (s, refuse r) := by
  simp [handleRead, h]

theorem handleRead_of_ok {record field : Byte} {f : FieldRef} (h : resolveField record field = .ok f) (s : State) :
    handleRead record field s = (s, doneWith (be32 (readField s f))) := by
  simp [handleRead, h]

theorem exec_read_of_takable {m : Master} {s t : State} {r : Reply} {record field : Byte} (h : takable m s) (ref : Half)
    (hr : handleRead record field (heard m s) = (t, r)) :
    exec (.read m ref record field) s = .next (answered m (answerTo ref 0x01 r) t) :=
  congrArg Host.Outcome.next (arrive_of_handle (req := .read record field) h ref rfl hr)

/-- Settles O47: READ by what `resolveField` makes of its record and field, the numbers by `fieldNumber_map_wordOf`, the
two counts by the canonical form of the catalogue. -/
theorem readAnswersField : Obligations.ReadAnswersField := by
  refine ⟨fun s m ref record field htake => ⟨fun hrecord => ?noRecord, fun hrecord hnone => ?noField, fun f hf => ?done,
    fun hrecord hnone => ?noNumber, fun v hv => ?number⟩, fun s record field f hf => fieldNumber_of_resolveField hf s,
    fun s l hs hl => ⟨fun hm => ?held, fun hm => ?evictable⟩⟩
  case noRecord => exact exec_read_of_takable htake ref (handleRead_of_error (resolveField_of_le hrecord) _)
  case noField => exact exec_read_of_takable htake ref (handleRead_of_error (resolveField_of_lt hrecord hnone) _)
  case done => exact exec_read_of_takable htake ref (handleRead_of_ok hf _)
  case noNumber =>
    have hfield := resolveField_of_lt hrecord (resolveField_ne_ok_of_fieldNumber hnone)
    exact exec_read_of_takable htake ref (handleRead_of_error hfield _)
  case number =>
    obtain ⟨f, hf, hread⟩ := resolveField_of_fieldNumber hv
    rw [← hread]
    exact exec_read_of_takable htake ref (handleRead_of_ok hf _)
  case held => exact congrArg some (heldCount_eq_length hs hl hm)
  case evictable => exact congrArg some (evictableCount_eq_length hs hl hm)

end Sys2Proof.Machine
end

section
/-! PROOFS. What every step keeps (1): the six invariants in one relation, and the updates of the state that keep them. -/

namespace Sys2Proof.Machine

/-! ### The relation -/

/-- Each of the six invariants that `s` has, `t` has. -/
structure Keeps (s t : State) : Prop where
  budgets : s.budgetsOk → t.budgetsOk
  supervisors : s.supervisorsOk → t.supervisorsOk
  queues : s.queuesOk → t.queuesOk
  locks : s.locksOk → t.locksOk
  link : s.link.itemsOk → t.link.itemsOk
  tables : s.tablesOk → t.tablesOk

theorem Keeps.refl (s : State) : Keeps s s := ⟨id, id, id, id, id, id⟩

theorem Keeps.trans {s t u : State} (h : Keeps s t) (g : Keeps t u) : Keeps s u where
  budgets := g.budgets ∘ h.budgets
  supervisors := g.supervisors ∘ h.supervisors
  queues := g.queues ∘ h.queues
  locks := g.locks ∘ h.locks
  link := g.link ∘ h.link
  tables := g.tables ∘ h.tables

theorem Keeps.ite {s t u : State} {c : Prop} [Decidable c] (ht : c → Keeps s t) (hu : ¬c → Keeps s u) :
    Keeps s (if c then t else u) := by
  split
  · exact ht ‹_›
  · exact hu ‹_›

theorem Keeps.foldl {α : Type} {f : State → α → State} (h : ∀ s a, Keeps s (f s a)) (l : List α) (s : State) :
    Keeps s (l.foldl f s) := by
  induction l generalizing s with
  | nil => exact .refl s
  | cons a l ih => exact (h s a).trans (ih _)

theorem Keeps.eachPort {f : Port → State → State} (h : ∀ k s, Keeps s (f k s)) (s : State) :
    Keeps s (eachPort f s) :=
  eachPort_induction f (Keeps s) (fun k u hu => hu.trans (h k u)) s (.refl s)

/-! ### Updates of one part of the state -/

/-- A channel with nothing to spend, as that of a TRIPPED port (R76). -/
def Channel.spent (c : Channel) : Prop := c.target = 0 ∧ c.rate = 0 ∧ c.credit = 0

theorem chanOf_inj {j k : Port} (h : chanOf j = chanOf k) : j = k := Fin.castSucc_inj.mp h

section Updates

variable {s : State}

theorem keeps_modCam {k : Port} {f : CameraPort → CameraPort}
    (h : (s.cam k).staging.length ≤ 8 → (f (s.cam k)).staging.length ≤ 8) : Keeps s (s.modCam k f) where
  budgets := id
  supervisors := id
  queues := fun ⟨hq, hrest⟩ => by
    refine ⟨fun j => ⟨?_, (hq j).2⟩, hrest⟩
    by_cases hj : j = k
    · subst hj; rw [State.cam_modCam]; exact h (hq j).1
    · rw [State.cam_modCam_ne s f hj]; exact (hq j).1
  locks := id
  link := id
  tables := id

theorem keeps_modSup {k : Port} {f : Supervisor → Supervisor} (hi : (s.sup k).itemsOk → (f (s.sup k)).itemsOk)
    (ht : (f (s.sup k)).state = .tripped → (s.sup k).state = .tripped) : Keeps s (s.modSup k f) where
  budgets := fun ⟨hc, hz⟩ => by
    refine ⟨hc, fun j hj => ?_⟩
    by_cases hjk : j = k
    · subst hjk; rw [State.sup_modSup] at hj; exact hz j (ht hj)
    · rw [State.sup_modSup_ne s f hjk] at hj; exact hz j hj
  supervisors := fun hs j => by
    by_cases hj : j = k
    · subst hj; rw [State.sup_modSup]; exact hi (hs j)
    · rw [State.sup_modSup_ne s f hj]; exact hs j
  queues := id
  locks := id
  link := id
  tables := id

theorem keeps_modChan {c : Chan} {f : Channel → Channel}
    (hb : (s.chan c).budgetOk s.link.grade → (f (s.chan c)).budgetOk s.link.grade)
    (hz : ∀ k, c = chanOf k → (s.sup k).state = .tripped → (s.chan c).spent → (f (s.chan c)).spent) :
    Keeps s (s.modChan c f) where
  budgets := fun ⟨hc, ht⟩ => by
    refine ⟨fun d => ?_, fun k hk => ?_⟩
    · by_cases hd : d = c
      · subst hd; rw [State.chan_modChan]; exact hb (hc d)
      · rw [State.chan_modChan_ne s f hd]; exact hc d
    · by_cases hd : chanOf k = c
      · subst hd; rw [State.chan_modChan]; exact hz k rfl hk (ht k hk)
      · rw [State.chan_modChan_ne s f hd]; exact ht k hk
  supervisors := id
  queues := id
  locks := id
  link := id
  tables := id

/-- The change of a channel that only names another current record. -/
theorem keeps_modChan_current (c : Chan) (x : Option Nat) : Keeps s (s.modChan c fun h => { h with current := x }) :=
  keeps_modChan id fun _ _ _ => id

theorem keeps_setLive {k : Port} {q : List Nat} (h : (s.liveQueue k).length ≤ 64 → q.length ≤ 64) :
    Keeps s (s.setLive k q) where
  budgets := id
  supervisors := id
  queues := fun ⟨hq, hrest⟩ => by
    refine ⟨fun j => ⟨(hq j).1, ?_⟩, hrest⟩
    by_cases hj : j = k
    · subst hj; rw [State.liveQueue_setLive]; exact h (hq j).2
    · rw [State.liveQueue_setLive_ne s q hj]; exact (hq j).2
  locks := id
  link := id
  tables := id

theorem keeps_setSlot (k : Port) (t : Option TriggerSlot) : Keeps s (s.setSlot k t) := ⟨id, id, id, id, id, id⟩

theorem keeps_setLock {l : Fin 13} {e : Option Lock}
    (h : ∀ x, e = some x → x.remaining ≤ 50000 ∧ (x.holder = .office → s.link.state = .up) ∧
      (x.holder = .line → s.shots.lineState = .attended)) : Keeps s (s.setLock l e) where
  budgets := id
  supervisors := id
  queues := id
  locks := fun ⟨ha, hl⟩ => by
    refine ⟨ha, fun j x hx => ?_⟩
    by_cases hj : j = l
    · subst hj; rw [State.lock_setLock] at hx; exact h x hx
    · rw [State.lock_setLock_ne s e hj] at hx; exact hl j x hx
  link := id
  tables := id

theorem keeps_setRecord (n : Nat) (r : FrameRecord) : Keeps s (s.setRecord n r) :=
  ⟨id, id, id, id, id, fun ⟨hm, hc, hl, hh⟩ => ⟨hm, Table.wf_set hc n r, hl, hh⟩⟩

theorem keeps_modRecord (n : Nat) (f : FrameRecord → FrameRecord) : Keeps s (s.modRecord n f) := keeps_setRecord n _

theorem keeps_setLookup (k : Port) (n : Half) (e : Option Nat) : Keeps s (s.setLookup k n e) :=
  ⟨id, id, id, id, id, fun ⟨hm, hc, hl, hh⟩ => ⟨hm, hc, Table.wf_set hl _ e, hh⟩⟩

theorem keeps_events (u : Events) : Keeps s { s with events := u } := ⟨id, id, id, id, id, id⟩

theorem keeps_raise (g : GlobalEvent) : Keeps s (s.raise g) := keeps_events _

theorem keeps_raisePort (k : Port) (p : PortEvent) : Keeps s (s.raisePort k p) := keeps_events _

theorem keeps_count (k : Port) (c : PortCount) : Keeps s (s.count k c) := keeps_events _

theorem keeps_countGlobal (c : GlobalCount) (n : Nat) : Keeps s (s.countGlobal c n) := keeps_events _

theorem keeps_dark (d : DarkDetector) : Keeps s { s with dark := d } := ⟨id, id, id, id, id, id⟩

theorem keeps_draws (n : Nat) : Keeps s { s with draws := n } := ⟨id, id, id, id, id, id⟩

/-- The store's lists and its phase play no part in the invariants. -/
theorem keeps_storeLists {t : State} (hs : t = { s with store := t.store }) (hm : t.store.mem = s.store.mem)
    (hc : t.store.catalogue = s.store.catalogue) (hl : t.store.lookup = s.store.lookup)
    (hh : t.store.health = s.store.health) : Keeps s t := by
  rw [hs]
  exact ⟨id, id, id, id, id, fun ⟨h1, h2, h3, h4⟩ => ⟨hm ▸ h1, hc ▸ h2, hl ▸ h3, hh ▸ h4⟩⟩

theorem keeps_mem {mem : List Host.Cell} (h : Memory.wf s.store.mem → Memory.wf mem) :
    Keeps s { s with store := { s.store with mem := mem } } :=
  ⟨id, id, id, id, id, fun ⟨hm, hrest⟩ => ⟨h hm, hrest⟩⟩

theorem keeps_health (b : Nat) (x : BlockHealth) :
    Keeps s { s with store := { s.store with health := Table.set .sound s.store.health b x } } :=
  ⟨id, id, id, id, id, fun ⟨hm, hc, hl, hh⟩ => ⟨hm, hc, hl, Table.wf_set hh b x⟩⟩

/-- A change of the shot table that adds no open shot, leaves the line state and keeps the window in its bound. -/
theorem keeps_shots {x : ShotTable} (hs : s.shots.shots.length ≤ 64 → x.shots.length ≤ 64)
    (hw : s.shots.window.length ≤ 256 → x.window.length ≤ 256) (hl : x.lineState = s.shots.lineState) :
    Keeps s { s with shots := x } where
  budgets := id
  supervisors := id
  queues := fun ⟨hc, hr, h1, h2, ha⟩ => ⟨hc, hr, hs h1, hw h2, ha⟩
  locks := fun ⟨ha, hk⟩ => ⟨ha, fun l e he => by
    obtain ⟨h1, h2, h3⟩ := hk l e he
    exact ⟨h1, h2, fun h => hl.trans (h3 h)⟩⟩
  link := id
  tables := id

theorem keeps_recalls {x : RecallUnit} (h : s.recalls.queue.length ≤ 16 → x.queue.length ≤ 16) :
    Keeps s { s with recalls := x } :=
  ⟨id, id, fun ⟨hc, hr, hrest⟩ => ⟨hc, h hr, hrest⟩, id, id, id⟩

/-- A change of the link's items that neither brings it into UP nor takes it out of UP. -/
theorem keeps_modLink {f : Link → Link} (hg : (f s.link).grade = s.link.grade)
    (hu : (f s.link).state = .up ↔ s.link.state = .up) (hi : s.link.itemsOk → (f s.link).itemsOk) :
    Keeps s (s.modLink f) where
  budgets := fun ⟨hc, hz⟩ => ⟨fun c => by rw [State.modLink_link, hg]; exact hc c, hz⟩
  supervisors := id
  queues := id
  locks := fun ⟨ha, hk⟩ => by
    refine ⟨fun h => ha (mt hu.mpr h), fun l e he => ?_⟩
    obtain ⟨h1, h2, h3⟩ := hk l e he
    exact ⟨h1, fun h => hu.mpr (h2 h), h3⟩
  link := hi
  tables := id

/-- What the scheduler remembers of turns and of the cell sent plays no part in the invariants. -/
theorem keeps_turns (credit surplus : Chan) (sent : Option UplinkCell) :
    Keeps s { s with uplink := { s.uplink with lastCredit := credit, lastSurplus := surplus, sent := sent } } :=
  ⟨id, id, id, id, id, id⟩

/-- The line's answer buffer and transfer play no part in the invariants. -/
theorem keeps_lineAnswer (buffer : Option Answer) (transfer : Option Transfer) (out : List Byte) :
    Keeps s { s with reqs := { s.reqs with lineBuffer := buffer, transfer := transfer, shiftedOut := out } } :=
  ⟨id, id, id, id, id, id⟩

end Updates

end Sys2Proof.Machine
end

section
/-! PROOFS. What every step keeps (2): the store, the dark-port detector, completions and the supervisors. -/

namespace Sys2Proof.Machine

variable {s : State}

/-! ### The store (chapter 3) -/

theorem keeps_freeRecord (n : Nat) : Keeps s (freeRecord n s) :=
  ((keeps_setLookup _ _ none).trans (keeps_setRecord n _)).trans (keeps_storeLists rfl rfl rfl rfl rfl)

theorem keeps_evict (n : Nat) : Keeps s (evict n s) := (keeps_freeRecord n).trans (keeps_countGlobal ..)

theorem keeps_evictForPage (fuel : Nat) (s : State) : Keeps s (evictForPage fuel s) := by
  induction fuel generalizing s with
  | zero => exact .refl s
  | succ fuel ih =>
    unfold evictForPage
    split
    · exact .refl s
    · split
      · exact .refl s
      · exact (keeps_evict _).trans (ih _)

theorem keeps_takePage : Keeps s (takePage s).2 := by
  have h := keeps_evictForPage s.store.ageList.length s
  unfold takePage
  dsimp only
  split
  · exact h
  · exact h.trans (keeps_storeLists rfl rfl rfl rfl rfl)

theorem keeps_supplyRecord : Keeps s (supplyRecord s).2 := by
  have h : Keeps s (if s.store.freeRecords ≠ [] then s else match victim s with
      | none => s
      | some n => evict n s) := by
    refine .ite (fun _ => .refl s) fun _ => ?_
    split
    · exact .refl s
    · exact keeps_evict _
  unfold supplyRecord
  dsimp only
  split
  · exact h
  · exact h.trans (keeps_storeLists rfl rfl rfl rfl rfl)

theorem keeps_requestRecord (k : Port) : Keeps s (requestRecord k s).2 := by
  unfold requestRecord
  split
  · exact keeps_supplyRecord
  · split
    · exact (keeps_evict _).trans keeps_supplyRecord
    · exact .refl s

theorem keeps_recoverBlock (b : Nat) : Keeps s (recoverBlock b s) := by
  unfold recoverBlock
  generalize drawnBytes _ _ _ = bytes
  refine .ite (fun _ => .refl s) fun _ => ⟨id, id, id, id, id, fun ⟨hm, hc, hl, hh⟩ => ?_⟩
  exact ⟨writeMem_wf hm _ _, hc, hl, Table.wf_set hh b .sound⟩

theorem keeps_writeBytes (a : Nat) (bytes : List Byte) : Keeps s (writeBytes a bytes s) :=
  (Keeps.foldl (fun _ b => keeps_recoverBlock b) _ s).trans (keeps_mem fun h => writeMem_wf h a bytes)

theorem keeps_spoilBlock (e : MemError) : Keeps s (spoilBlock s e) :=
  .ite (fun _ => .refl s) fun _ => keeps_health _ _

theorem keeps_storeInitEnd : Keeps s s.initEnded :=
  ⟨id, id, id, id, id, fun ⟨_, hc, hl, _⟩ => ⟨⟨.nil, nofun⟩, hc, hl, ⟨.nil, nofun⟩⟩⟩

/-! ### The dark-port detector (section 4.8) -/

theorem keeps_visitPorts (ports : List Port) : Keeps s (visitPorts ports s) := by
  rw [visitPorts_eq]; exact keeps_dark _

theorem keeps_abandonDarkVisit (k : Port) : Keeps s (abandonDarkVisit k s) :=
  .ite (fun _ => keeps_visitPorts _) fun _ => .refl s

theorem keeps_darkOpenAccepted (k : Port) : Keeps s (darkOpenAccepted k s) :=
  .ite (fun _ => keeps_visitPorts _) fun _ => .refl s

theorem keeps_darkWarmupEnded (k : Port) : Keeps s (darkWarmupEnded k s) :=
  .ite (fun _ => keeps_dark _) fun _ => .refl s

/-! ### Completion and placement (section 1.6) -/

theorem keeps_endWarmup {k : Port} (h : (s.sup k).state = .warmup) : Keeps s (endWarmup k s) := by
  refine Keeps.trans (keeps_modSup (fun hi => ?_) (by simp)) (keeps_darkWarmupEnded k)
  unfold Supervisor.itemsOk at hi ⊢
  simp_all

theorem keeps_warmupCompletion (k : Port) : Keeps s (warmupCompletion k s) := by
  refine .ite (fun h => .ite (fun _ => keeps_modSup (fun hi => ?_) id) fun _ => keeps_endWarmup h) fun _ => .refl s
  unfold Supervisor.itemsOk at hi ⊢
  simp_all

theorem keeps_enqueue {k : Port} (n : Nat) (h : (s.liveQueue k).length < 64) : Keeps s (enqueue k n s) := by
  refine (keeps_setLive fun _ => ?_).trans (keeps_modRecord n _)
  rw [List.length_append]
  exact h

theorem keeps_holdRecord (n : Nat) : Keeps s (holdRecord n s) := keeps_modRecord n _

theorem keeps_queueOrHold (k : Port) (n : Nat) : Keeps s (queueOrHold k n s) :=
  .ite (fun h => keeps_enqueue n h) fun _ => (keeps_holdRecord n).trans (keeps_count ..)

/-- A decimation step is a placement and a change of the decimation count alone. -/
theorem keeps_decimate {k : Port} (n : Nat) (h : (s.sup k).state = .throttled) : Keeps s (decimate k n s) := by
  unfold decimate
  refine Keeps.trans (t := if (s.sup k).decimationCount = 0 then queueOrHold k n s
    else (holdRecord n s).count k .heldThrottle) ?_ (keeps_modSup (fun hi => ?_) id)
  · exact .ite (fun _ => keeps_queueOrHold k n) fun _ => (keeps_holdRecord n).trans (keeps_count ..)
  · have hs : ((if (s.sup k).decimationCount = 0 then queueOrHold k n s
        else (holdRecord n s).count k .heldThrottle).sup k).state = .throttled := by
      unfold queueOrHold
      split
      · split <;> exact h
      · exact h
    obtain ⟨h1, h2, h3, h4, -, h6, h7, h8, h9, -, h11⟩ := hi
    exact ⟨h1, h2, h3, h4, decimation_le _ _, h6, h7, h8, h9, fun hne => absurd hs hne, h11⟩

theorem keeps_placeClean (k : Port) (n : Nat) : Keeps s (placeClean k n s) :=
  .ite (fun h => keeps_decimate n h.2) fun _ => keeps_queueOrHold k n

theorem keeps_dropReference (n : Nat) : Keeps s (dropReference n s) :=
  keeps_shots (fun h => by rwa [List.length_map]) id rfl

theorem keeps_discardRecord (k : Port) (n : Nat) : Keeps s (discardRecord k n s) :=
  ((keeps_freeRecord n).trans (keeps_dropReference n)).trans (keeps_count ..)

theorem keeps_placeRecord (k : Port) (n : Nat) : Keeps s (placeRecord k n s) := by
  refine .ite (fun _ => ?_) fun _ => keeps_placeClean k n
  split
  · exact keeps_placeClean k n
  · exact keeps_holdRecord n
  · exact keeps_discardRecord k n

theorem keeps_complete (k : Port) (n : Nat) : Keeps s (complete k n s) := by
  unfold complete
  refine Keeps.trans ?_ ((keeps_warmupCompletion k).trans (keeps_placeRecord k n))
  refine Keeps.trans ?_ (keeps_modCam id)
  have h : Keeps s ({ s with store := { s.store with ageList := s.store.ageList ++ [n] } }) :=
    keeps_storeLists rfl rfl rfl rfl rfl
  refine (h.trans (keeps_count k .framesCompleted)).trans ?_
  exact .ite (fun _ => .refl _) fun _ => (keeps_count ..).trans (keeps_raisePort ..)

theorem keeps_truncateAndComplete (k : Port) (n : Nat) : Keeps s (truncateAndComplete k s n) :=
  (keeps_modRecord n _).trans (keeps_complete k n)

theorem keeps_stopReception (k : Port) : Keeps s (stopReception k s) :=
  (keeps_modCam (by simp)).trans (Keeps.foldl (fun _ n => keeps_truncateAndComplete k n) _ _)

/-! ### The supervisors (chapter 4) -/

/-- A supervisor outside THROTTLED and WARMUP with every count at 0, but for blanking and the last load (R65). -/
theorem Supervisor.itemsOk_of_rest {u : Supervisor} (hl : u.lastLoad ≤ 65535) (hb : u.blanking ≤ 32)
    (hd : u.state = .disabled → u.blanking = 0) (ho : u.overCount = 0 ∧ u.tripDue = false)
    (hc : u.calmCount = 0 ∧ u.decimationCount = 0)
    (ht : u.state ≠ .throttled → u.throttleExit = .none ∧ u.throttleTimer = none)
    (hw : u.warmupCompletions = 0 ∧ u.warmupTimer = none) : u.itemsOk := by
  obtain ⟨ho, hdue⟩ := ho
  obtain ⟨hc, hdec⟩ := hc
  unfold Supervisor.itemsOk
  simp_all

/-- The change of a supervisor by which it comes to rest in a state: what stands of it is what R65 bounds in every state. -/
theorem keeps_modSup_rest {k : Port} {f : Supervisor → Supervisor}
    (h : (s.sup k).itemsOk → (f (s.sup k)).lastLoad = (s.sup k).lastLoad ∧
      ((f (s.sup k)).blanking = 0 ∨
        (f (s.sup k)).blanking = (s.sup k).blanking ∧ (f (s.sup k)).state ≠ .disabled) ∧
      ((f (s.sup k)).overCount = 0 ∧ (f (s.sup k)).tripDue = false) ∧
      ((f (s.sup k)).calmCount = 0 ∧ (f (s.sup k)).decimationCount = 0) ∧
      ((f (s.sup k)).state ≠ .throttled → (f (s.sup k)).throttleExit = .none ∧ (f (s.sup k)).throttleTimer = none) ∧
      ((f (s.sup k)).warmupCompletions = 0 ∧ (f (s.sup k)).warmupTimer = none))
    (ht : (f (s.sup k)).state = .tripped → (s.sup k).state = .tripped) : Keeps s (s.modSup k f) := by
  refine keeps_modSup (fun hi => ?_) ht
  obtain ⟨hload, hblank, hover, hcalm, hthrottle, hwarm⟩ := h hi
  obtain ⟨h1, h2, -⟩ := hi
  exact Supervisor.itemsOk_of_rest (by omega) (by omega) (fun hd => hblank.resolve_right fun h => h.2 hd) hover hcalm
    hthrottle hwarm

theorem keeps_enterWarmup {k : Port} (h : (s.sup k).state = .disabled) : Keeps s (enterWarmup k s) := by
  unfold enterWarmup
  refine Keeps.trans (keeps_modSup (fun hi => ?_) (by simp)) (keeps_modChan (fun hb => ?_) fun j hj ht => ?_)
  · unfold Supervisor.itemsOk at hi ⊢
    simp_all
  · split
    · exact hb
    · obtain ⟨-, hrest⟩ := hb
      exact ⟨Nat.le_refl _, hrest⟩
  · rw [← chanOf_inj hj, State.sup_modSup] at ht
    exact nomatch ht

theorem keeps_enablePort {k : Port} (h : (s.sup k).state = .disabled) : Keeps s (enablePort k s) := by
  refine .ite (fun _ => keeps_enterWarmup h) fun _ => keeps_modSup_rest (fun hi => ?_) (by simp)
  unfold Supervisor.itemsOk at hi
  simp_all

theorem keeps_disablePort (k : Port) : Keeps s (disablePort k s) := by
  unfold disablePort
  refine ((keeps_modSup_rest (fun _ => ?_) (by simp)).trans (keeps_stopReception k)).trans (keeps_abandonDarkVisit k)
  simp

theorem keeps_startBlanking (k : Port) : Keeps s (startBlanking k s) := by
  refine keeps_modSup (fun hi => ?_) fun h => ?_
  · split
    · exact hi
    · obtain ⟨h1, -, h3, h4, h5, h6, h7, -, hrest⟩ := hi
      exact ⟨h1, Nat.le_refl 32, h3, h4, h5, h6, h7, fun hd => absurd hd ‹_›, hrest⟩
  · split at h <;> exact h

/-- TRIPPED entry takes the supervision state and the channel's budget together (R76). -/
theorem keeps_enterTripped {k : Port} (h : (s.sup k).state ≠ .warmup) : Keeps s (enterTripped k s) := by
  unfold enterTripped
  refine Keeps.trans ?_ ((keeps_stopReception k).trans (keeps_abandonDarkVisit k))
  generalize hf : (fun u : Supervisor => { u with
      state := .tripped, overCount := 0, tripDue := false, calmCount := 0, decimationCount := 0
      throttleExit := .none, throttleTimer := none }) = f
  have hrest : (s.sup k).itemsOk → (f (s.sup k)).itemsOk := by
    subst hf
    rintro ⟨h1, h2, -, -, -, -, -, h8, -, -, h11⟩
    exact Supervisor.itemsOk_of_rest h1 h2 nofun ⟨rfl, rfl⟩ ⟨rfl, rfl⟩ (fun _ => ⟨rfl, rfl⟩) (h11 h)
  refine ⟨fun ⟨hc, hz⟩ => ⟨fun c => ?_, fun j hj => ?_⟩, fun hs j => ?_, id, id, id, id⟩
  · by_cases hck : c = chanOf k
    · subst hck
      rw [State.chan_modChan]
      obtain ⟨-, h2, h3, h4, -, h6, -, -, h9, h10⟩ := hc (chanOf k)
      exact ⟨Nat.zero_le _, h2, h3, h4, Nat.zero_le _, h6, Nat.zero_le _, fun _ => rfl, fun hcode => ⟨rfl, (h9 hcode).2⟩,
        h10⟩
    · rw [State.chan_modChan_ne _ _ hck]; exact hc c
  · by_cases hjk : j = k
    · subst hjk; rw [State.chan_modChan]; exact ⟨rfl, rfl, rfl⟩
    · rw [State.sup_modChan, State.sup_modSup_ne s f hjk] at hj
      rw [State.chan_modChan_ne _ _ fun e => hjk (chanOf_inj e)]
      exact hz j hj
  · by_cases hjk : j = k
    · subst hjk; rw [State.sup_modChan, State.sup_modSup]; exact hrest (hs j)
    · rw [State.sup_modChan, State.sup_modSup_ne s f hjk]; exact hs j

theorem keeps_enterUnguarded {k : Port} (h : (s.sup k).state ≠ .warmup) : Keeps s (enterUnguarded k s) := by
  refine keeps_modSup_rest (fun hi => ?_) (by simp)
  unfold Supervisor.itemsOk at hi
  simp_all

theorem keeps_enterThrottled {k : Port} (exit : ThrottleExit) (h : (s.sup k).state ≠ .warmup) :
    Keeps s (enterThrottled k exit s) := by
  refine keeps_modSup_rest (fun hi => ?_) (by simp)
  unfold Supervisor.itemsOk at hi
  simp_all

/-- The over-count at 0 and no TRIP due: what a TRIP, a threshold write and CLEAR_FAULT do (R72, R78, R80). -/
theorem Supervisor.itemsOk_overCount {u : Supervisor} (h : u.itemsOk) :
    ({ u with overCount := 0, tripDue := false } : Supervisor).itemsOk := by
  obtain ⟨h1, h2, -, h4, h5, h6, -, h8, -, hrest⟩ := h
  exact ⟨h1, h2, Nat.zero_le _, h4, h5, h6, fun _ => Nat.zero_le _, h8, fun _ => ⟨rfl, rfl⟩, hrest⟩

theorem keeps_overCount (k : Port) : Keeps s (s.modSup k fun u => { u with overCount := 0, tripDue := false }) :=
  keeps_modSup Supervisor.itemsOk_overCount id

theorem keeps_takeTrip {k : Port} (h : (s.sup k).state ≠ .warmup) : Keeps s (takeTrip k s) := by
  unfold takeTrip
  refine ((keeps_raisePort k .trip).trans (keeps_overCount k)).trans ?_
  dsimp only
  have h' : (((s.raisePort k .trip).modSup k fun u => { u with overCount := 0, tripDue := false }).sup k).state ≠
      .warmup := by rw [State.sup_modSup]; exact h
  split
  · exact .refl _
  · exact keeps_enterTripped h'
  · exact keeps_enterThrottled _ h'
  · exact keeps_enterThrottled _ h'
  · exact keeps_enterThrottled _ h'

theorem keeps_calmReturn {k : Port} (h : (s.sup k).state = .throttled) : Keeps s (calmReturn k s) := by
  refine keeps_modSup_rest (fun hi => ?_) (by simp)
  unfold Supervisor.itemsOk at hi
  simp_all

theorem keeps_tripIfDue (k : Port) : Keeps s (tripIfDue k s) :=
  .ite (fun h => keeps_takeTrip (by rw [h.1]; decide)) fun _ => .refl s

theorem keeps_calmIfDue (k : Port) : Keeps s (calmIfDue k s) :=
  .ite (fun h => keeps_calmReturn h.1) fun _ => .refl s

/-- What CLEAR_FAULT does to a supervisor, by its state, blanking apart (R78). -/
def Supervisor.faultCleared (u : Supervisor) : Supervisor :=
  match u.state with
  | .tripped | .unguarded => { u with state := .run, overCount := 0, tripDue := false }
  | .throttled => { u with throttleTimer := u.throttleTimer.map fun _ => throttleTime u.throttleTimeout }
  | .run => { u with overCount := 0, tripDue := false }
  | .warmup | .disabled => u

theorem clearFault_eq (k : Port) (s : State) :
    clearFault k s = startDarkPass (startBlanking k (s.modSup k Supervisor.faultCleared)) := rfl

theorem Supervisor.itemsOk_faultCleared {u : Supervisor} (h : u.itemsOk) : u.faultCleared.itemsOk := by
  unfold Supervisor.faultCleared
  split
  case h_4 => exact Supervisor.itemsOk_overCount h
  all_goals
    unfold Supervisor.itemsOk at h ⊢
    simp_all

theorem keeps_clearFault (k : Port) : Keeps s (clearFault k s) := by
  rw [clearFault_eq]
  refine ((keeps_modSup Supervisor.itemsOk_faultCleared fun h => ?_).trans (keeps_startBlanking k)).trans
    (keeps_visitPorts _)
  unfold Supervisor.faultCleared at h
  split at h <;> simp_all

end Sys2Proof.Machine
end

section
/-! PROOFS. What every step keeps (3): shots, lane messages and the page writers, the scheduler and the recall unit. -/

namespace Sys2Proof.Machine

variable {s : State}

/-! ### Shots (chapter 2) -/

theorem keeps_modShot (n : Half) (f : Shot → Shot) : Keeps s (modShot n f s) :=
  keeps_shots (fun h => by rwa [List.length_map]) id rfl

theorem keeps_expireSlot (k : Port) : Keeps s (expireSlot k s) := by
  unfold expireSlot
  split
  · exact .refl s
  · have h (c : PerPort Nat) : Keeps s { s with ctrg := c } := ⟨id, id, id, id, id, id⟩
    exact ((h _).trans (keeps_setSlot k none)).trans (keeps_modShot ..)

theorem keeps_assignSlot (n : Half) (k : Port) : Keeps s (assignSlot n k s) := by
  refine .ite (fun _ => (keeps_setSlot ..).trans (.ite (fun _ => keeps_expireSlot k) fun _ => .refl _)) fun _ => ?_
  exact ((keeps_modShot ..).trans (keeps_raisePort ..)).trans (keeps_count ..)

theorem keeps_promote (n : Nat) : Keeps s (promote n s) :=
  .ite (fun _ => .refl s) fun _ => .ite (fun h => keeps_enqueue n h) fun _ => keeps_count ..

theorem keeps_closeReference (v : Verdict) (p : Port × Nat) : Keeps s (closeReference v s p) :=
  (keeps_modRecord p.2 _).trans (.ite (fun _ => keeps_promote p.2) fun _ => .refl _)

/-- The references of a closed shot, which then leaves the open-shot list. -/
theorem keeps_closeShot (v : Verdict) (h : Shot) : Keeps s (closeShot v h s) :=
  (Keeps.foldl (fun _ p => keeps_closeReference v p) h.refs s).trans
    (keeps_shots (fun hl => (List.length_filter_le ..).trans hl) id rfl)

theorem keeps_makeShotRoom : Keeps s (makeShotRoom s) := by
  unfold makeShotRoom
  split
  · exact .refl s
  · exact .ite (fun _ => .refl s) fun _ =>
      ((keeps_closeShot ..).trans (keeps_raise _)).trans (keeps_countGlobal ..)

/-- Room is made: with at most 64 shots open, fewer than 64 are left (R23 step 1). -/
theorem length_shots_makeShotRoom (h : s.shots.shots.length ≤ 64) : (makeShotRoom s).shots.shots.length < 64 := by
  unfold makeShotRoom
  split
  · rename_i hnil; rw [hnil]; decide
  · rename_i g rest hcons
    split
    · assumption
    · change ((g.refs.foldl (closeReference (automaticVerdict s)) s).shots.shots.filter
        fun x => decide (x.number ≠ g.number)).length < 64
      rw [shots_foldl_closeReference, hcons, List.filter_cons_of_neg (by simp)]
      rw [hcons, List.length_cons] at h
      exact Nat.lt_of_le_of_lt (List.length_filter_le ..) h

theorem length_windowWith {w : List Half} (n : Half) (h : w.length ≤ 256) : (windowWith w n).length ≤ 256 := by
  unfold windowWith
  split
  · rw [List.length_append]; assumption
  · simp only [List.length_append, List.length_tail, List.length_singleton]; omega

theorem keeps_createShot (wanted : BitVec 8) (keep : Bool) (tag : Option Word) (origin : Origin) :
    Keeps s (createShot wanted keep tag origin s) := by
  unfold createShot
  refine Keeps.trans (t := { makeShotRoom s with
    shots := { (makeShotRoom s).shots with
      shots := (makeShotRoom s).shots.shots ++ [newShot (makeShotRoom s) wanted keep tag origin]
      next := (makeShotRoom s).shots.next + 1
      window := windowWith (makeShotRoom s).shots.window (makeShotRoom s).shots.next } }) ?_
    (Keeps.eachPort (fun k u => .ite (fun _ => keeps_assignSlot _ k) fun _ => .refl u) _)
  have hroom : Keeps s (makeShotRoom s) := keeps_makeShotRoom
  refine ⟨hroom.budgets, hroom.supervisors, fun hq => ?_, hroom.locks, hroom.link, hroom.tables⟩
  have hlt := length_shots_makeShotRoom (s := s) hq.2.2.1
  obtain ⟨hc, hr, -, hw, ha⟩ := hroom.queues hq
  exact ⟨hc, hr, by rw [List.length_append]; exact hlt, length_windowWith _ hw, ha⟩

theorem keeps_matchFrame (k : Port) (n : Nat) : Keeps s (matchFrame k n s) := by
  unfold matchFrame
  split
  · exact keeps_count ..
  · exact (keeps_modShot ..).trans (keeps_modRecord n _)

/-! ### Lane messages (chapter 1) -/

theorem keeps_endAssembly (k : Port) (n : Nat) : Keeps s (endAssembly k n s) :=
  (keeps_modCam id).trans (.ite (fun _ => keeps_modCam id) fun _ => keeps_complete k n)

theorem keeps_truncateByOpen (k : Port) : Keeps s (truncateByOpen k s) := by
  unfold truncateByOpen
  split
  · exact .refl s
  · exact (keeps_modRecord ..).trans (keeps_endAssembly k _)

theorem keeps_refuseFrame (k : Port) (c : PortCount) : Keeps s (refuseFrame k c s) :=
  ((keeps_count ..).trans (keeps_raisePort ..)).trans (keeps_modCam id)

theorem keeps_acceptFrame (k : Port) (n : Nat) (counter width height : Half) (bpp : Byte) :
    Keeps s (acceptFrame k n counter width height bpp s) := by
  unfold acceptFrame
  refine Keeps.trans ?_ (((keeps_matchFrame k n).trans (keeps_count k .framesOpened)).trans (keeps_darkOpenAccepted k))
  exact ((keeps_setRecord n _).trans (keeps_setLookup k _ (some n))).trans (keeps_modCam id)

theorem keeps_takeOpen (k : Port) (counter width height : Half) (bpp : Byte) :
    Keeps s (takeOpen k counter width height bpp s) := by
  unfold takeOpen
  refine Keeps.trans (t := if (s.cam k).receive = .assembling then truncateByOpen k s else s)
    (.ite (fun _ => keeps_truncateByOpen k) fun _ => .refl s) ?_
  generalize (if (s.cam k).receive = .assembling then truncateByOpen k s else s) = t
  have hreq : Keeps t (requestRecord k t).2 := keeps_requestRecord k
  refine .ite (fun _ => keeps_refuseFrame ..) fun _ => .ite (fun _ => keeps_refuseFrame ..) fun _ => ?_
  split <;> rename_i heq <;> rw [heq] at hreq
  · exact hreq.trans (keeps_refuseFrame ..)
  · exact hreq.trans (keeps_acceptFrame ..)

theorem keeps_stageLine (k : Port) (n : Nat) (payload : List Byte) : Keeps s (stageLine k n payload s) := by
  unfold stageLine
  refine .ite (fun _ => keeps_modRecord ..) fun _ => .ite (fun h => (keeps_modRecord ..).trans (keeps_modCam fun _ => ?_))
    fun _ => ((keeps_modRecord ..).trans (keeps_modRecord ..)).trans (keeps_count ..)
  rw [List.length_append]
  exact h

theorem keeps_assembleLine (k : Port) (n : Nat) (index length check : Half) (payload : List Byte) :
    Keeps s (assembleLine k n index length check payload s) := by
  unfold assembleLine
  exact .ite (fun _ => ((keeps_modCam id).trans (keeps_modRecord ..)).trans (keeps_modRecord ..)) fun _ =>
    (((keeps_modCam id).trans (keeps_modRecord ..)).trans (keeps_modRecord ..)).trans (keeps_stageLine ..)

theorem keeps_takeLineMessage (k : Port) (index length check : Half) (payload : List Byte) :
    Keeps s (takeLineMessage k index length check payload s) := by
  unfold takeLineMessage
  split
  · exact keeps_assembleLine ..
  all_goals exact keeps_count ..

theorem keeps_takeClose (k : Port) (count : Half) : Keeps s (takeClose k count s) := by
  unfold takeClose
  split
  · exact keeps_count ..
  · exact keeps_modCam id
  · dsimp only
    split
    · exact keeps_modCam id
    · exact ((keeps_modCam id).trans (keeps_modRecord ..)).trans (keeps_endAssembly k _)

theorem keeps_laneMessage (k : Port) (msg : Option LaneMessage) : Keeps s (laneMessage k msg s) := by
  refine .ite (fun _ => ?_) fun _ => keeps_count ..
  split
  · exact .refl s
  · exact keeps_takeOpen ..
  · exact keeps_takeLineMessage ..
  · exact keeps_takeClose ..

/-! ### The page writers (section 1.5) -/

theorem keeps_loadBytes (k : Port) (n : Nat) :
    Keeps s (s.modSup k fun u => { u with loadBytes := u.loadBytes + n }) := keeps_modSup id id

theorem keeps_placeBytes (k : Port) (count : Nat) : Keeps s (placeBytes k count s) := by
  unfold placeBytes
  split
  · exact .refl s
  · exact (((keeps_writeBytes _ _).trans (keeps_modRecord _ _)).trans (keeps_modCam id)).trans (keeps_loadBytes k _)

theorem keeps_finishLine (k : Port) : Keeps s (finishLine k s) := by
  unfold finishLine
  split
  · exact .refl s
  · rename_i l rest hl
    refine Keeps.trans (t := s.modCam k fun c => { c with staging := rest, written := 0 }) (keeps_modCam fun h => ?_)
      (.ite (fun _ => (keeps_modCam id).trans (keeps_complete k _)) fun _ => .refl _)
    rw [hl, List.length_cons] at h
    exact Nat.le_of_succ_le h

theorem keeps_cutShort (k : Port) (n : Nat) : Keeps s (cutShort k n s) := by
  unfold cutShort
  refine ((keeps_modRecord n _).trans (keeps_modCam fun h => ?_)).trans (keeps_complete k n)
  exact (List.length_filter_le ..).trans h

theorem keeps_askPage (k : Port) (n : Nat) : Keeps s (askPage k n s) := by
  have h : Keeps s (takePage s).2 := keeps_takePage
  unfold askPage
  split <;> rename_i heq <;> rw [heq] at h
  · exact (h.trans (keeps_modRecord n _)).trans (keeps_placeBytes k 1)
  · exact h.trans (keeps_cutShort k n)

theorem keeps_writerProgress (k : Port) : Keeps s (writerProgress k s) := by
  unfold writerProgress
  split
  · exact .refl s
  · exact (keeps_placeBytes ..).trans (keeps_draws _)

/-! ### The scheduler (chapter 5) and channel 8 -/

theorem keeps_eachChannel {f : Channel → Channel} (hb : ∀ {g : Grade} {c : Channel}, c.budgetOk g → (f c).budgetOk g)
    (hz : ∀ {c : Channel}, c.spent → (f c).spent) : Keeps s (eachChannel f s) where
  budgets := fun ⟨hc, ht⟩ => by
    have heq (c : Chan) : (eachChannel f s).chan c = f (s.chan c) := by simp [eachChannel, State.chan]
    refine ⟨fun c => ?_, fun k hk => ?_⟩
    · rw [heq]; exact hb (hc c)
    · rw [heq]; exact hz (ht k hk)
  supervisors := id
  queues := id
  locks := id
  link := id
  tables := id

theorem keeps_settleDue : Keeps s (settleDue s) :=
  (Keeps.eachPort (fun k _ => (keeps_tripIfDue k).trans (keeps_calmIfDue k)) s).trans
    (keeps_eachChannel Channel.budgetOk_stepIfDue Channel.zero_stepIfDue)

theorem keeps_readCell (n i : Nat) : Keeps s (readCell n i s).2.2 := by
  have h := readFrame_readCell n i s
  refine ⟨fun ⟨hc, hz⟩ => ⟨fun c => ?_, fun k => ?_⟩, fun hs k => ?_, fun ⟨hq, hr, hn, hw, ha⟩ => ?_,
    fun ⟨ha, hl⟩ => ?_, fun hi => h.link ▸ hi, fun ⟨hm, hcat, hl, hh⟩ => ?_⟩
  · have := hc c; unfold State.chan at this ⊢; rwa [h.uplink, h.link]
  · have := hz k; unfold State.sup State.chan at this ⊢; rwa [h.sups, h.uplink]
  · have := hs k; unfold State.sup at this ⊢; rwa [h.sups]
  · refine ⟨fun k => ?_, h.recalls ▸ hr, h.shots ▸ hn, h.shots ▸ hw, h.reqs ▸ ha⟩
    have := hq k; unfold State.cam State.liveQueue at this ⊢; rwa [h.cams, h.uplink]
  · refine ⟨by rwa [h.link, h.reqs], fun l => ?_⟩
    have := hl l; unfold State.lock at this ⊢; rwa [h.reqs, h.link, h.shots]
  · exact ⟨h.mem ▸ hm, h.wf hcat, h.lookup ▸ hl, h.health ▸ hh⟩

theorem keeps_sendCell (cell : UplinkCell) : Keeps s (sendCell cell s) := keeps_turns ..

theorem keeps_sendNext (c : Chan) (n : Nat) : Keeps s (sendNext c n s) :=
  ((keeps_readCell n _).trans (keeps_modRecord n _)).trans (keeps_sendCell _)

theorem keeps_beginSend (k : Port) (n : Nat) : Keeps s (beginSend k n s) :=
  .ite (fun _ => .refl s) fun _ => (keeps_modRecord n _).trans (keeps_modChan_current ..)

theorem keeps_endSend (k : Port) (n : Nat) : Keeps s (endSend k n s) := by
  refine .ite (fun _ => .refl s) fun _ => ?_
  refine ((keeps_modRecord n _).trans (keeps_setLive fun h => ?_)).trans (keeps_modChan_current ..)
  rw [List.length_tail]
  exact (Nat.sub_le ..).trans h

theorem keeps_grantLive (k : Port) : Keeps s (grantLive k s) := by
  unfold grantLive
  split
  · exact .refl s
  · exact (((keeps_beginSend k _).trans (keeps_sendNext _ _)).trans (keeps_count ..)).trans (keeps_endSend k _)

theorem keeps_setHeadStarted (b : Bool) : Keeps s (setHeadStarted b s) := by
  unfold setHeadStarted
  split
  · exact .refl s
  · rename_i e rest hq
    exact keeps_recalls fun h => by rwa [hq] at h

theorem keeps_beginRecall (e : RecallEntry) : Keeps s (beginRecall e s) :=
  .ite (fun _ => .refl s) fun _ =>
    ((keeps_setHeadStarted true).trans (keeps_modRecord e.record _)).trans (keeps_modChan_current ..)

theorem keeps_endRecall (n : Nat) : Keeps s (endRecall n s) := by
  refine .ite (fun _ => .refl s) fun _ => ?_
  refine ((keeps_recalls fun h => ?_).trans (keeps_modRecord n _)).trans (keeps_modChan_current ..)
  rw [List.length_tail]
  exact (Nat.sub_le ..).trans h

theorem keeps_grantRecall : Keeps s (grantRecall s) := by
  unfold grantRecall
  split
  · exact .refl s
  · exact (((keeps_beginRecall _).trans (keeps_sendNext ..)).trans (keeps_countGlobal ..)).trans (keeps_endRecall _)

theorem keeps_grant (c : Chan) : Keeps s (grant c s) := by
  unfold grant
  split
  · exact keeps_grantLive _
  · exact keeps_grantRecall

/-- The price of a slot keeps the budget's bounds, and takes nothing from a channel that has nothing (R99). -/
theorem keeps_payForSlot (c : Chan) :
    Keeps s (s.modChan c fun h => { h with credit := h.credit - Config.slotPrice }) := by
  refine keeps_modChan (fun ⟨h1, hrest⟩ => ⟨(Nat.sub_le ..).trans h1, hrest⟩) fun _ _ _ ⟨h1, h2, h3⟩ => ⟨h1, h2, ?_⟩
  change (s.chan c).credit - _ = 0
  rw [h3, Nat.zero_sub]

theorem keeps_dataSlot : Keeps s (dataSlot s) := by
  unfold dataSlot
  split
  · exact ((keeps_turns _ _ _).trans (keeps_payForSlot _)).trans (keeps_grant _)
  · exact (keeps_turns _ _ _).trans (keeps_grant _)
  · exact keeps_sendCell _

theorem keeps_undoLive (k : Port) : Keeps s (undoLive k s) := by
  unfold undoLive
  split
  · exact .refl s
  · exact .ite (fun _ => (keeps_modRecord ..).trans (keeps_modChan_current ..)) fun _ => .refl s

theorem keeps_undoRecall : Keeps s (undoRecall s) := by
  unfold undoRecall
  split
  · exact .refl s
  · exact .ite (fun _ => ((keeps_setHeadStarted false).trans (keeps_modRecord ..)).trans (keeps_modChan_current ..))
      fun _ => .refl s

theorem keeps_undoSends : Keeps s (undoSends s) :=
  (Keeps.eachPort (fun k _ => keeps_undoLive k) s).trans keeps_undoRecall

end Sys2Proof.Machine
end

section
/-! PROOFS. What every step keeps (4): the round mark, and the fibre link controller. -/

namespace Sys2Proof.Machine

/-! ### Turns of ports that leave the other ports' supervisors alone -/

section Turns

variable {f : Port → State → State} (hf : ∀ k j s, j ≠ k → (f k s).sup j = s.sup j)

include hf

theorem sup_foldl_turns_of_not_mem {l : List Port} {k : Port} (hk : k ∉ l) (s : State) :
    (l.foldl (fun t j => f j t) s).sup k = s.sup k := by
  induction l generalizing s with
  | nil => rfl
  | cons j l ih =>
    rw [List.mem_cons, not_or] at hk
    rw [List.foldl_cons, ih hk.2, hf j k s hk.1]

/-- After all ports' turns a port's supervisor is as its own turn leaves it. -/
theorem sup_eachPort {P : State → Prop} (hP : ∀ k s, P s → P (f k s)) {s : State} (h : P s) (k : Port) :
    ∃ u, P u ∧ u.sup k = s.sup k ∧ (eachPort f s).sup k = (f k u).sup k := by
  have main : ∀ (l : List Port) (s : State), l.Nodup → k ∈ l → P s →
      ∃ u, P u ∧ u.sup k = s.sup k ∧ (l.foldl (fun t j => f j t) s).sup k = (f k u).sup k := by
    intro l
    induction l with
    | nil => intro s _ hk _; cases hk
    | cons j l ih =>
      intro s hl hk h
      obtain ⟨hjl, hl⟩ := List.nodup_cons.mp hl
      by_cases hkj : k = j
      · subst hkj
        exact ⟨s, h, rfl, sup_foldl_turns_of_not_mem hf hjl _⟩
      · have hkl : k ∈ l := (List.mem_cons.mp hk).resolve_left hkj
        obtain ⟨u, hu, hus, hfold⟩ := ih (f j s) hl hkl (hP j s h)
        exact ⟨u, hu, hus.trans (hf j k s hkj), hfold⟩
  exact main allPorts s (by decide) (mem_allPorts k) h

end Turns

variable {s : State}

/-! ### The round mark -/

/-- What a TRIP does before the trip mode decides: the flag, and an over-count of 0 (R72). -/
def tripFlagged (k : Port) (s : State) : State :=
  (s.raisePort k .trip).modSup k fun u => { u with overCount := 0, tripDue := false }

theorem sup_tripFlagged (k : Port) (s : State) :
    (tripFlagged k s).sup k = { s.sup k with overCount := 0, tripDue := false } := State.sup_modSup ..

theorem sup_tripFlagged_ne {j k : Port} (h : j ≠ k) (s : State) : (tripFlagged k s).sup j = s.sup j :=
  State.sup_modSup_ne _ _ h

theorem takeTrip_eq (k : Port) (s : State) :
    takeTrip k s =
      match (s.sup k).tripMode with
      | .report => tripFlagged k s
      | .latch => enterTripped k (tripFlagged k s)
      | .throttle => enterThrottled k .none (tripFlagged k s)
      | .throttleOff => enterThrottled k .toTripped (tripFlagged k s)
      | .throttleRelease => enterThrottled k .toUnguarded (tripFlagged k s) := by
  have h : ((tripFlagged k s).sup k).tripMode = (s.sup k).tripMode := by rw [sup_tripFlagged]
  rw [← h]
  rfl

theorem sup_takeTrip_ne {j k : Port} (h : j ≠ k) (s : State) : (takeTrip k s).sup j = s.sup j := by
  rw [takeTrip_eq]
  split
  · exact sup_tripFlagged_ne h s
  · obtain ⟨-, others, -⟩ := enterTripped_spec k (tripFlagged k s)
    exact (others j h).trans (sup_tripFlagged_ne h s)
  all_goals exact (State.sup_modSup_ne _ _ h).trans (sup_tripFlagged_ne h s)

theorem sup_tripIfDue_ne {j k : Port} (h : j ≠ k) (s : State) : (tripIfDue k s).sup j = s.sup j := by
  unfold tripIfDue
  split
  · exact sup_takeTrip_ne h s
  · rfl

theorem sup_calmIfDue_ne {j k : Port} (h : j ≠ k) (s : State) : (calmIfDue k s).sup j = s.sup j := by
  unfold calmIfDue
  split
  · exact State.sup_modSup_ne _ _ h
  · rfl

theorem tripDue_takeTrip (k : Port) (s : State) : ((takeTrip k s).sup k).tripDue = false := by
  rw [takeTrip_eq]
  split
  · rw [sup_tripFlagged]
  · obtain ⟨hsup, -⟩ := enterTripped_spec k (tripFlagged k s)
    rw [hsup]
  all_goals exact congrArg Supervisor.tripDue (State.sup_modSup ..)

/-- With its items in range, no TRIP is due on a port once the due one is taken. -/
theorem tripDue_tripIfDue {k : Port} (h : (s.sup k).itemsOk) : ((tripIfDue k s).sup k).tripDue = false := by
  unfold tripIfDue
  split
  · exact tripDue_takeTrip k s
  · rename_i hdue
    obtain ⟨-, -, -, -, -, -, -, -, rest, -⟩ := h
    by_cases hrun : (s.sup k).state = .run
    · exact Bool.eq_false_iff.mpr fun hd => hdue ⟨hrun, hd⟩
    · exact (rest hrun).2

/-- What a round mark finds at a supervisor: neither a TRIP nor a return to calm is due. -/
def Supervisor.settled (u : Supervisor) : Prop := u.tripDue = false ∧ u.calmCount < 256

theorem settled_calmIfDue {k : Port} (h : (s.sup k).itemsOk) (hd : (s.sup k).tripDue = false) :
    ((calmIfDue k s).sup k).settled := by
  unfold calmIfDue
  split
  · unfold calmReturn
    rw [State.sup_modSup]
    exact ⟨rfl, Nat.zero_lt_succ _⟩
  · rename_i hcalm
    obtain ⟨-, -, -, -, -, -, -, -, -, rest, -⟩ := h
    refine ⟨hd, ?_⟩
    by_cases ht : (s.sup k).state = .throttled
    · exact Nat.lt_of_not_le fun hle => hcalm ⟨ht, hle⟩
    · rw [(rest ht).1]; exact Nat.zero_lt_succ _

theorem sup_eachChannel (f : Channel → Channel) (s : State) (k : Port) : (eachChannel f s).sup k = s.sup k := rfl

/-- After one port's turn of settling, its supervisor is settled. -/
theorem settled_settlePort (h : s.supervisorsOk) (k : Port) : ((calmIfDue k (tripIfDue k s)).sup k).settled := by
  have ht : (tripIfDue k s).supervisorsOk := (keeps_tripIfDue k).supervisors h
  exact settled_calmIfDue (ht k) (tripDue_tripIfDue (h k))

theorem settled_settleDue (h : s.supervisorsOk) (k : Port) : ((settleDue s).sup k).settled := by
  obtain ⟨u, hu, -, hturn⟩ := sup_eachPort (f := fun k s => calmIfDue k (tripIfDue k s)) (P := State.supervisorsOk)
    (fun k j u hj => (sup_calmIfDue_ne hj _).trans (sup_tripIfDue_ne hj u))
    (fun k _ hu => (keeps_calmIfDue k).supervisors ((keeps_tripIfDue k).supervisors hu)) h k
  unfold settleDue
  rw [sup_eachChannel, hturn]
  exact settled_settlePort hu k

theorem state_mark (u : Supervisor) (load : Nat) : (u.mark load).state = u.state := by
  unfold Supervisor.mark
  cases u.state
  case run => dsimp only; split <;> rfl
  all_goals rfl

theorem closedLoad_le (draw bytes : Nat) : closedLoad draw bytes ≤ 65535 := by
  unfold closedLoad
  split
  · assumption
  · exact Nat.le_of_lt_succ (Config.freeLoad draw).isLt

theorem sup_markSupervisor (k : Port) (s : State) :
    (markSupervisor k s).sup k = (s.sup k).mark (closedLoad s.draws (s.sup k).loadBytes) := by
  unfold markSupervisor
  dsimp only
  split
  · exact State.sup_modSup ..
  · exact State.sup_modSup s k fun u => u.mark (closedLoad s.draws (s.sup k).loadBytes)

theorem sup_markSupervisor_ne {j k : Port} (h : j ≠ k) (s : State) : (markSupervisor k s).sup j = s.sup j := by
  unfold markSupervisor
  dsimp only
  split
  · exact State.sup_modSup_ne s _ h
  · exact State.sup_modSup_ne s (fun u => u.mark (closedLoad s.draws (s.sup k).loadBytes)) h

/-- The round mark at the supervisors changes them and the count of draws alone, and no supervision state. -/
theorem eachPort_markSupervisor_frame (s : State) :
    eachPort markSupervisor s =
        { s with sups := (eachPort markSupervisor s).sups, draws := (eachPort markSupervisor s).draws } ∧
      ∀ k, ((eachPort markSupervisor s).sup k).state = (s.sup k).state := by
  refine eachPort_induction markSupervisor
    (fun t => t = { s with sups := t.sups, draws := t.draws } ∧ ∀ k, (t.sup k).state = (s.sup k).state)
    (fun k u ⟨hu, hstate⟩ => ⟨?_, fun j => ?_⟩) s ⟨rfl, fun _ => rfl⟩
  · rw [hu]; unfold markSupervisor; dsimp only; split <;> rfl
  · by_cases hj : j = k
    · subst hj; rw [sup_markSupervisor, state_mark, hstate]
    · rw [sup_markSupervisor_ne hj, hstate]

theorem supervisorsOk_eachPort_mark (h : s.supervisorsOk) (hs : ∀ k, (s.sup k).settled) :
    (eachPort markSupervisor s).supervisorsOk := by
  intro k
  obtain ⟨u, -, hu, hturn⟩ := sup_eachPort (f := markSupervisor) (P := fun _ => True)
    (fun k j u hj => sup_markSupervisor_ne hj u) (fun _ _ _ => trivial) (s := s) trivial k
  rw [hturn, sup_markSupervisor, hu]
  obtain ⟨hdue, hcalm⟩ := hs k
  exact Supervisor.itemsOk_mark (h k) hdue hcalm (closedLoad_le ..)

theorem Channel.budgetOk_mark {g : Grade} {c : Channel} (h : c.budgetOk g) : c.mark.budgetOk g :=
  Channel.budgetOk_countSlew (Channel.budgetOk_refill h)

/-- The round mark at the supervisors, once what was due is taken. -/
theorem keeps_eachPort_mark {t : State} (h : Keeps s t) (hs : s.supervisorsOk → ∀ k, (t.sup k).settled) :
    Keeps s (eachPort markSupervisor t) := by
  obtain ⟨hframe, hstate⟩ := eachPort_markSupervisor_frame t
  refine ⟨fun hb => ?_, fun hu => supervisorsOk_eachPort_mark (h.supervisors hu) (hs hu), fun hq => ?_, fun hl => ?_,
    fun hi => ?_, fun ht => ?_⟩
  · obtain ⟨hc, hz⟩ := h.budgets hb
    refine ⟨?_, fun k hk => ?_⟩
    · rw [hframe]; exact hc
    · rw [hstate] at hk; rw [hframe]; exact hz k hk
  · rw [hframe]; exact h.queues hq
  · rw [hframe]; exact h.locks hl
  · rw [hframe]; exact h.link hi
  · rw [hframe]; exact h.tables ht

theorem keeps_roundMark : Keeps s (markRound (settleDue s)) :=
  (keeps_eachPort_mark keeps_settleDue settled_settleDue).trans
    (keeps_eachChannel Channel.budgetOk_mark Channel.zero_mark)

/-! ### The link (chapter 7) -/

theorem lock_releaseLocks (m : Master) (s : State) (l : Fin 13) :
    (releaseLocks m s).lock l = (s.lock l).filter fun e => e.holder ≠ m := by
  simp [releaseLocks, State.lock]

/-- A lock that stands after a release was held before, by the other master. -/
theorem lock_of_releaseLocks {m : Master} {l : Fin 13} {e : Lock} (h : (releaseLocks m s).lock l = some e) :
    s.lock l = some e ∧ e.holder ≠ m := by
  rw [lock_releaseLocks] at h
  simpa using Option.filter_eq_some_iff.mp h

/-- What the undoing of sends leaves as it stands. -/
theorem undoSends_frame (s : State) :
    (undoSends s).reqs = s.reqs ∧ (undoSends s).link = s.link ∧ (undoSends s).shots = s.shots := by
  have live : ∀ (k : Port) (u : State),
      (undoLive k u).reqs = u.reqs ∧ (undoLive k u).link = u.link ∧ (undoLive k u).shots = u.shots := by
    intro k u
    unfold undoLive
    split
    · exact ⟨rfl, rfl, rfl⟩
    · split <;> exact ⟨rfl, rfl, rfl⟩
  have recalled : ∀ u : State,
      (undoRecall u).reqs = u.reqs ∧ (undoRecall u).link = u.link ∧ (undoRecall u).shots = u.shots := by
    intro u
    unfold undoRecall setHeadStarted
    split
    · exact ⟨rfl, rfl, rfl⟩
    · split <;> exact ⟨rfl, rfl, rfl⟩
  have ports := eachPort_induction undoLive (fun u => u.reqs = s.reqs ∧ u.link = s.link ∧ u.shots = s.shots)
    (fun k u ⟨h1, h2, h3⟩ => ⟨(live k u).1.trans h1, (live k u).2.1.trans h2, (live k u).2.2.trans h3⟩) s ⟨rfl, rfl, rfl⟩
  obtain ⟨h1, h2, h3⟩   := recalled (eachPort undoLive s)
  exact ⟨h1.trans ports.1, h2.trans ports.2.1, h3.trans ports.2.2⟩

/-- The link's leaving UP as one value: sends undone, the office's locks and answers gone, flags and counts apart. -/
theorem leaveUp_eq (s : State) :
    ∃ v, leaveUp s =
      { undoSends s with
        reqs :=
          { (undoSends s).reqs with
            locks := (releaseLocks .office (undoSends s)).reqs.locks
            officeAnswers := [] }
        events := v } := by
  unfold leaveUp
  generalize undoSends s = t
  exact ⟨_, rfl⟩

/-- The link's leaving UP, with the end of the office's locks and answers that goes with it (R127). -/
theorem keeps_leaveUp {f : Link → Link} (hg : (f s.link).grade = s.link.grade)
    (hi : s.link.itemsOk → (f s.link).itemsOk) : Keeps s (leaveUp (s.modLink f)) := by
  have hundo : Keeps (s.modLink f) (undoSends (s.modLink f)) := keeps_undoSends
  obtain ⟨hreqs, -, hshots⟩ := undoSends_frame (s.modLink f)
  obtain ⟨v, heq⟩ := leaveUp_eq (s.modLink f)
  rw [heq]
  generalize undoSends (s.modLink f) = t at hundo hreqs hshots ⊢
  refine ⟨fun hb => ?_, fun hs => ?_, fun hq => ?_, fun hl => ?_, fun h => ?_, fun ht => ?_⟩
  · obtain ⟨hc, hz⟩ := hb
    exact hundo.budgets ⟨fun c => by rw [State.modLink_link, hg]; exact hc c, hz⟩
  · exact hundo.supervisors hs
  · obtain ⟨hports, hr, hn, hw, -⟩ := hundo.queues hq
    exact ⟨hports, hr, hn, hw, Nat.zero_le _⟩
  · obtain ⟨-, hl⟩ := hl
    refine ⟨fun _ => rfl, fun l e he => ?_⟩
    obtain ⟨hheld, hm⟩ := lock_of_releaseLocks (s := t) (m := .office) he
    have hheld' : s.lock l = some e := by unfold State.lock at hheld ⊢; rwa [hreqs] at hheld
    obtain ⟨h1, -, h3⟩ := hl l e hheld'
    refine ⟨h1, fun h => absurd h hm, fun h => ?_⟩
    exact (congrArg ShotTable.lineState hshots).trans (h3 h)
  · exact hundo.link (hi h)
  · exact hundo.tables ht

theorem keeps_enterAligning (h : s.link.state = .down ∨ s.link.state = .halted) : Keeps s (enterAligning s) := by
  refine keeps_modLink rfl ?_ fun hi => ?_
  · rcases h with h | h <;> simp [h]
  · obtain ⟨-, -, -, hz, -, hrec⟩ := hi
    obtain ⟨-, hb⟩ := hz h
    refine ⟨Nat.zero_le _, Nat.zero_le _, by simp, fun _ => ⟨rfl, rfl⟩, fun _ => rfl, fun _ => hrec ?_⟩
    rcases h with h | h <;> simp [h]

/-- Entry into UP, from a state with a window in progress. -/
theorem keeps_enterUp (h : s.link.state = .aligning ∨ s.link.state = .recovering) : Keeps s (enterUp s) := by
  have hne : s.link.state ≠ .up := by rcases h with h | h <;> simp [h]
  refine Keeps.trans (t := s.modLink fun l => { l with state := .up, goodRun := 0, badRun := 0, recovery := none })
    ⟨id, id, id, fun hl => ?_, fun hi => ?_, id⟩ (keeps_raise _)
  · obtain ⟨ha, hk⟩ := hl
    refine ⟨fun hup => absurd rfl hup, fun l e he => ?_⟩
    obtain ⟨h1, -, h3⟩ := hk l e he
    exact ⟨h1, fun _ => rfl, h3⟩
  · obtain ⟨-, -, hw, -⟩ := hi
    refine ⟨Nat.zero_le _, Nat.zero_le _, ?_, fun _ => ⟨rfl, rfl⟩, fun _ => rfl, fun _ => rfl⟩
    have hsome : s.link.window.isSome := hw.mpr (h.elim .inl fun h => .inr (.inr h))
    exact ⟨fun _ => .inr (.inl rfl), fun _ => hsome⟩

theorem keeps_enterRecovering (h : s.link.state = .up) : Keeps s (enterRecovering s) := by
  refine keeps_leaveUp rfl fun hi => ?_
  obtain ⟨-, -, hw, -⟩ := hi
  have hsome : s.link.window.isSome := hw.mpr (.inr (.inl h))
  exact ⟨Nat.zero_le _, Nat.zero_le _, ⟨fun _ => .inr (.inr rfl), fun _ => hsome⟩, fun _ => ⟨rfl, rfl⟩, fun _ => rfl,
    fun hr => absurd rfl hr⟩

theorem faultCount_le (c : Fin 4) : faultCount c ≤ 6 := by revert c; decide

/-- A change of the runs alone. -/
theorem keeps_runs {good bad : Nat} (hg : s.link.goodRun ≤ 2 → good ≤ 2) (hb : s.link.badRun ≤ 6 → bad ≤ 6)
    (hup : s.link.state = .up ∨ s.link.badRun = bad ∧ (s.link.state = .aligning ∨ s.link.state = .recovering)) :
    Keeps s (s.modLink fun l => { l with goodRun := good, badRun := bad }) := by
  refine keeps_modLink rfl .rfl fun hi => ?_
  obtain ⟨h1, h2, hw, hz, hbad, hrec⟩ := hi
  refine ⟨hg h1, hb h2, hw, fun h => ?_, fun h => ?_, hrec⟩
  · rcases hup with hs | ⟨-, hs | hs⟩ <;> simp [hs] at h
  · rcases hup with hs | ⟨heq, hs⟩
    · simp [hs] at h
    · exact heq.symm.trans (hbad hs)

theorem keeps_judgeWindow (good : Bool) : Keeps s (judgeWindow good s) := by
  unfold judgeWindow
  split
  · rename_i h
    refine .ite (fun _ => ?_) fun _ => .ite (fun _ => keeps_enterUp (.inl h)) fun hrun => ?_
    · exact keeps_runs (fun _ => Nat.zero_le _) id (.inr ⟨rfl, .inl h⟩)
    · exact keeps_runs (fun _ => by omega) id (.inr ⟨rfl, .inl h⟩)
  · rename_i h
    refine .ite (fun _ => ?_) fun _ => .ite (fun _ => keeps_enterRecovering h) fun hrun => ?_
    · exact keeps_runs id (fun _ => Nat.zero_le _) (.inl h)
    · have hcount := faultCount_le s.link.faultCode
      exact keeps_runs id (fun _ => by omega) (.inl h)
  · rename_i h
    refine .ite (fun _ => ?_) fun _ => .ite (fun _ => (keeps_enterUp (.inr h)).trans (keeps_countGlobal ..)) fun hrun => ?_
    · exact keeps_runs (fun _ => Nat.zero_le _) id (.inr ⟨rfl, .inr h⟩)
    · exact keeps_runs (fun _ => by omega) id (.inr ⟨rfl, .inr h⟩)
  all_goals exact .refl s

/-- A new window in progress, with whatever tallies, where one was. -/
theorem keeps_window {w w' : Window} (h : s.link.window = some w) :
    Keeps s (s.modLink fun l => { l with window := some w' }) := by
  refine keeps_modLink rfl .rfl fun hi => ?_
  obtain ⟨h1, h2, hw, hrest⟩ := hi
  refine ⟨h1, h2, ⟨fun _ => hw.mp (by rw [h]; rfl), fun _ => rfl⟩, hrest⟩

theorem keeps_endWindow : Keeps s (endWindow s) := by
  unfold endWindow
  split
  · exact .refl s
  · rename_i w h
    exact (keeps_window h).trans (keeps_judgeWindow _)

theorem keeps_loseLight : Keeps s (loseLight s) := by
  have hi (l : Link) :
      ({ l with state := .down, goodRun := 0, badRun := 0, window := none, recovery := none } : Link).itemsOk :=
    ⟨Nat.zero_le _, Nat.zero_le _, by simp, fun _ => ⟨rfl, rfl⟩, fun _ => rfl, fun _ => rfl⟩
  refine .ite (fun _ => .refl s) fun _ => .ite (fun _ => keeps_leaveUp rfl fun _ => hi _) fun hup => ?_
  exact keeps_modLink rfl (by simp [hup]) fun _ => hi _

theorem keeps_recoveryExpiry (h : s.link.state = .recovering) :
    Keeps s ((s.modLink fun l =>
      { l with state := .halted, goodRun := 0, badRun := 0, window := none, recovery := none }).raise .linkHalted) :=
  (keeps_modLink rfl (by simp [h]) fun _ =>
    ⟨Nat.zero_le _, Nat.zero_le _, by simp, fun _ => ⟨rfl, rfl⟩, fun _ => rfl, fun _ => rfl⟩).trans (keeps_raise _)

/-- The oldest office answer leaves its queue. -/
theorem keeps_officeAnswers_tail {a : Answer} {rest : List Answer} (h : s.reqs.officeAnswers = a :: rest) :
    Keeps s { s with reqs := { s.reqs with officeAnswers := rest } } where
  budgets := id
  supervisors := id
  queues := fun ⟨hc, hr, hn, hw, ha⟩ => by
    rw [h, List.length_cons] at ha
    exact ⟨hc, hr, hn, hw, Nat.le_of_succ_le ha⟩
  locks := fun ⟨ha, hl⟩ => by
    refine ⟨fun hup => ?_, hl⟩
    have := ha hup
    rw [h] at this
    cases this
  link := id
  tables := id

theorem keeps_controlSlot : Keeps s (controlSlot s) := by
  refine .ite (fun _ => keeps_sendCell _) fun _ => ?_
  split
  · rename_i h
    exact (keeps_officeAnswers_tail h).trans (keeps_sendCell _)
  · exact .ite (fun _ => (keeps_events _).trans (keeps_sendCell _)) fun _ => keeps_sendCell _

theorem keeps_handleRestartLink (m : Master) : Keeps s (handleRestartLink m s).1 := by
  cases m
  · exact .ite (fun h => keeps_enterAligning (.inr h)) fun _ => .refl s
  · exact .refl s

end Sys2Proof.Machine
end

section
/-! PROOFS. What every step keeps (5): settings writes, requests, the line and the office. -/

namespace Sys2Proof.Machine

variable {s : State}

/-! ### Settings (section 8.4) -/

theorem keeps_writeEnable (k : Port) (v : Word) : Keeps s (writeEnable k v s) :=
  .ite (fun _ => .ite (fun _ => .refl s) fun _ => keeps_disablePort k) fun _ =>
    .ite (fun h => keeps_enablePort h) fun _ => .refl s

theorem keeps_writeWarmupArmed (k : Port) (v : Word) : Keeps s (writeWarmupArmed k v s) :=
  .ite (fun _ => (keeps_modSup id id).trans (.ite (fun h => keeps_endWarmup h) fun _ => .refl _)) fun _ =>
    .ite (fun _ => keeps_modSup id id) fun _ => .refl s

theorem keeps_writePortSetting (k : Port) (f : PortSetting) (v : Word) : Keeps s (writePortSetting k f v s) := by
  cases f <;> dsimp only [writePortSetting]
  case enable => exact keeps_writeEnable k v
  case warmupArmed => exact keeps_writeWarmupArmed k v
  case tripThreshold => exact keeps_modSup Supervisor.itemsOk_overCount id
  case damagedPolicy => exact keeps_modCam id
  case triggerDelay => exact keeps_shots id id rfl
  all_goals exact keeps_modSup id id

/-- A target write that step 7 of R146 does not refuse. -/
theorem keeps_writeTarget {c : Chan} (v : Word) (h : targetBarred (.chan c .target) s = false) :
    Keeps s (writeTarget c v s) := by
  have hchan : Keeps s (s.modChan c fun h => h.writeTarget (min v.toNat (gradeMaximum s.link.grade))) := by
    refine keeps_modChan (fun hb => Channel.budgetOk_writeTarget hb (Nat.min_le_right ..)) fun k hk ht => ?_
    have hb : targetBarred (.chan c .target) s = true := (targetBarred_iff _ s).mpr ⟨k, by rw [hk], ht⟩
    rw [h] at hb
    cases hb
  unfold writeTarget
  dsimp only
  split
  · exact hchan
  · exact hchan.trans (keeps_startBlanking _)

/-- A channel with nothing to spend has nothing to spend after a write of a setting that is not its target. -/
theorem Channel.spent_writes {c : Channel} (h : c.spent) (n : Nat) (on : Bool) (code : Fin 8) :
    (c.writeCeiling n).spent ∧ (c.writeSlewCode code).spent ∧ (c.writeWindow n).spent ∧ (c.writeAsymmetric on).spent := by
  have hstep : c.stepIfDue.spent := Channel.zero_stepIfDue h
  obtain ⟨h1, h2, h3⟩ := h
  refine ⟨⟨h1, h2, ?_⟩, ?_, hstep, hstep⟩
  · change min c.credit _ = 0
    rw [h3, Nat.zero_min]
  · unfold Channel.writeSlewCode
    obtain ⟨g1, g2, g3⟩ := hstep
    dsimp only
    split
    · exact ⟨g1, g1, g3⟩
    · exact ⟨g1, g2, g3⟩

theorem keeps_writeChanSetting {c : Chan} {f : ChanSetting} (v : Word) (h : targetBarred (.chan c f) s = false) :
    Keeps s (writeChanSetting c f v s) := by
  cases f <;> dsimp only [writeChanSetting]
  case target => exact keeps_writeTarget v h
  case startRate =>
    refine keeps_modChan (fun hb => ?_) fun _ _ _ => id
    obtain ⟨h1, h2, h3, h4, h5, -, hrest⟩ := hb
    exact ⟨h1, h2, h3, h4, h5, Nat.min_le_right .., hrest⟩
  case ceiling =>
    exact keeps_modChan (fun hb => Channel.budgetOk_writeCeiling hb (by omega) (by omega)) fun _ _ _ hz =>
      (Channel.spent_writes hz _ true 0).1
  case slewCode =>
    exact keeps_modChan (fun hb => Channel.budgetOk_writeSlewCode hb _) fun _ _ _ hz =>
      (Channel.spent_writes hz 0 true _).2.1
  case window =>
    exact keeps_modChan (fun hb => Channel.budgetOk_writeWindow hb (Nat.min_le_right ..)) fun _ _ _ hz =>
      (Channel.spent_writes hz _ true 0).2.2.1
  case asymmetric =>
    exact keeps_modChan (fun hb => Channel.budgetOk_writeAsymmetric hb _) fun _ _ _ hz =>
      (Channel.spent_writes hz 0 _ 0).2.2.2
  case surplusEnable =>
    exact keeps_modChan id fun _ _ _ => id

theorem keeps_restartWatchdog : Keeps s (restartWatchdog s) := keeps_shots id id rfl

theorem keeps_startDarkPass : Keeps s (startDarkPass s) := keeps_visitPorts _

theorem keeps_writeMask (whose : Master) (field : Fin 9) (v : Word) : Keeps s (writeMask whose field v s) := by
  cases whose <;> exact keeps_events _

theorem keeps_writeSetting {x : Setting} (v : Word) (h : targetBarred x s = false) : Keeps s (writeSetting x v s) := by
  cases x <;> dsimp only [writeSetting]
  case port k f => exact keeps_writePortSetting k f v
  case chan c f => exact keeps_writeChanSetting v h
  case evictSent => exact keeps_storeLists rfl rfl rfl rfl rfl
  case faultCode => exact keeps_modLink rfl .rfl id
  case lineWatchdog =>
    refine Keeps.trans ?_ keeps_restartWatchdog
    exact keeps_shots id id rfl
  case darkMask => exact (keeps_dark _).trans keeps_startDarkPass
  case darkTestTime => exact keeps_dark _
  case mask whose f => exact keeps_writeMask whose f v
  all_goals exact keeps_shots id id rfl

/-- A value that passes steps 6 and 7 of R146. -/
theorem targetBarred_of_valueRefused {x : Setting} {v : Word} (h : valueRefused x v s = none) :
    targetBarred x s = false := by
  unfold valueRefused at h
  split at h
  · cases h
  · split at h
    · cases h
    · rename_i ht; exact Bool.eq_false_iff.mpr ht

/-! ### Requests on settings (section 8.5) -/

/-- A master that requests can come from: the line while it is not silent, the office while the link is UP. -/
def State.hears (m : Master) (s : State) : Prop :=
  match m with
  | .line => s.shots.lineState = .attended
  | .office => s.link.state = .up

theorem keeps_handleRead (record field : Byte) : Keeps s (handleRead record field s).1 := by
  unfold handleRead
  split <;> exact .refl s

theorem keeps_handleWrite (m : Master) (record field : Byte) (v : Word) :
    Keeps s (handleWrite m record field v s).1 := by
  unfold handleWrite
  split
  · exact .refl s
  · split
    · exact .refl s
    · split
      · exact .refl s
      · split
        · exact .refl s
        · split
          · exact .refl s
          · rename_i hv
            exact keeps_writeSetting v (targetBarred_of_valueRefused hv)

theorem keeps_lock_granted {m : Master} (h : s.hears m) (l : Fin 13) :
    Keeps s (s.setLock l (some { holder := m, remaining := Config.lockLife })) := by
  refine keeps_setLock fun x hx => ?_
  cases hx
  refine ⟨Nat.le_refl _, fun hm => ?_, fun hm => ?_⟩
  · change m = _ at hm; subst hm; exact h
  · change m = _ at hm; subst hm; exact h

theorem keeps_lock_released (l : Fin 13) : Keeps s (s.setLock l none) := keeps_setLock fun _ hx => by cases hx

theorem keeps_handleLockRead {m : Master} (h : s.hears m) (record field : Byte) :
    Keeps s (handleLockRead m record field s).1 := by
  unfold handleLockRead
  split
  · exact .refl s
  · split
    · exact .refl s
    · split
      · exact .refl s
      · exact keeps_lock_granted h _

theorem keeps_handleWriteUnlock (m : Master) (record field : Byte) (v : Word) :
    Keeps s (handleWriteUnlock m record field v s).1 := by
  unfold handleWriteUnlock
  split
  · exact .refl s
  · split
    · exact .refl s
    · split
      · exact .refl s
      · split
        · exact .refl s
        · split
          · exact .refl s
          · rename_i hv
            exact (keeps_writeSetting v (targetBarred_of_valueRefused hv)).trans (keeps_lock_released _)

theorem keeps_handleUnlock (m : Master) (record : Byte) : Keeps s (handleUnlock m record s).1 := by
  unfold handleUnlock
  split
  · exact .refl s
  · exact .ite (fun _ => keeps_lock_released _) fun _ => .refl s

/-! ### Other requests -/

theorem keeps_handleTrigger (m : Master) (mask keep tagPresent : Byte) (tag : Word) :
    Keeps s (handleTrigger m mask keep tagPresent tag s).1 := by
  unfold handleTrigger
  split
  · exact .refl s
  · split
    · exact .refl s
    · exact keeps_createShot ..

theorem keeps_handleTag (m : Master) (shot : Half) (tag : Word) : Keeps s (handleTag m shot tag s).1 := by
  unfold handleTag
  split
  · exact .refl s
  · split
    · exact .refl s
    · exact (keeps_modShot ..).trans (Keeps.foldl (fun u (p : Port × Nat) => keeps_modRecord (s := u) p.2 _) _ _)

theorem keeps_handleQueryShot (shot : Half) : Keeps s (handleQueryShot shot s).1 := by
  unfold handleQueryShot
  split <;> exact .refl s

theorem keeps_handleVerdict (m : Master) (shot : Half) (v : Byte) : Keeps s (handleVerdict m shot v s).1 := by
  unfold handleVerdict
  split
  · exact .refl s
  · split
    · exact .refl s
    · split
      · exact keeps_closeShot ..
      · split
        · exact (keeps_raise _).trans (keeps_countGlobal ..)
        · exact .refl s

theorem keeps_handleRecall (m : Master) (port : Byte) (frame : Half) : Keeps s (handleRecall m port frame s).1 := by
  unfold handleRecall
  split
  · exact .refl s
  · split
    · exact .refl s
    · split
      · exact .refl s
      · split
        · exact .refl s
        · rename_i hroom
          dsimp only
          refine Keeps.trans (keeps_recalls fun _ => ?_) (keeps_modRecord ..)
          rw [List.length_append]
          exact Nat.lt_of_not_le hroom

theorem keeps_applyReceipt (k : Port) (mark : Half) : Keeps s (applyReceipt k mark s) where
  budgets := id
  supervisors := id
  queues := id
  locks := id
  link := id
  tables := fun ⟨hm, hc, hl, hh⟩ => ⟨hm, Table.wf_mapValues hc _, hl, hh⟩

theorem keeps_takeReceipt (port : Byte) (mark : Half) : Keeps s (takeReceipt port mark s) := by
  unfold takeReceipt
  split
  · exact .refl s
  · refine .ite (fun _ => .refl s) fun _ => Keeps.trans ?_ (keeps_applyReceipt ..)
    exact keeps_recalls id

theorem keeps_handleSetHold (m : Master) (b : Bool) (port : Byte) (frame : Half) :
    Keeps s (handleSetHold m b port frame s).1 := by
  unfold handleSetHold
  split
  · exact .refl s
  · dsimp only
    exact keeps_modRecord ..

theorem keeps_handleReleaseKeep (m : Master) (port : Byte) (frame : Half) :
    Keeps s (handleReleaseKeep m port frame s).1 := by
  unfold handleReleaseKeep
  split
  · exact .refl s
  · split
    · exact .refl s
    · dsimp only
      exact keeps_modRecord ..

theorem keeps_handleQueryFrame (port : Byte) (frame : Half) : Keeps s (handleQueryFrame port frame s).1 := by
  unfold handleQueryFrame
  split <;> exact .refl s

theorem keeps_flushStore : Keeps s (flushStore s) := by
  refine Keeps.trans (t := { s with
    store := s.store.flushed
    uplink := { s.uplink with live := .all [] }
    recalls := { s.recalls with queue := [] }
    shots := s.shots.flushed }) ⟨id, id, fun hq => ?_, id, id, fun ht => ?_⟩ (keeps_raise _)
  · obtain ⟨hports, -, hn, hw, ha⟩ := hq
    refine ⟨fun k => ⟨(hports k).1, ?_⟩, Nat.zero_le _, ?_, hw, ha⟩
    · exact (congrArg List.length (PerPort.getElem_all [] k)).trans_le (Nat.zero_le _)
    · exact (List.length_map ..).trans_le hn
  · obtain ⟨hm, hc, -, hh⟩ := ht
    exact ⟨hm, Table.wf_mapValues hc _, ⟨.nil, fun _ hp => by cases hp⟩, hh⟩

theorem keeps_handleFlush (m : Master) : Keeps s (handleFlush m s).1 := by
  unfold handleFlush
  split
  · exact .refl s
  · split
    · exact .refl s
    · split
      · exact .refl s
      · exact keeps_flushStore

theorem keeps_handleClearFault (port : Byte) : Keeps s (handleClearFault port s).1 := by
  unfold handleClearFault
  split
  · exact .refl s
  · exact keeps_clearFault _

theorem keeps_handleReadCounts (scope : Byte) : Keeps s (handleReadCounts scope s).1 := by
  unfold handleReadCounts
  split
  · exact .refl s
  · split <;> exact .refl s

/-- The handling of any request of a master that can be heard. -/
theorem keeps_handle {m : Master} (h : s.hears m) (req : Request) : Keeps s (handle m req s).1 := by
  cases req with
  | read record field => exact keeps_handleRead ..
  | write record field value => exact keeps_handleWrite ..
  | lockRead record field => exact keeps_handleLockRead h ..
  | writeUnlock record field value => exact keeps_handleWriteUnlock ..
  | unlock record => exact keeps_handleUnlock ..
  | trigger mask keep tagPresent tag => exact keeps_handleTrigger ..
  | tag shot value => exact keeps_handleTag ..
  | verdict shot value => exact keeps_handleVerdict ..
  | queryFrame port frame => exact keeps_handleQueryFrame ..
  | queryShot shot => exact keeps_handleQueryShot ..
  | recallFrame port frame => exact keeps_handleRecall ..
  | receipt port mark =>
    cases m
    · exact .refl s
    · exact keeps_takeReceipt ..
  | hold port frame => exact keeps_handleSetHold ..
  | unhold port frame => exact keeps_handleSetHold ..
  | releaseKeep port frame => exact keeps_handleReleaseKeep ..
  | clearEvents flags => exact keeps_events _
  | clearFault port => exact keeps_handleClearFault ..
  | readCounts scope => exact keeps_handleReadCounts ..
  | restartLink => exact keeps_handleRestartLink m
  | flushStore => exact keeps_handleFlush m
  | unknown kind => exact .refl s

end Sys2Proof.Machine
end

section
/-! PROOFS. What every step keeps (6): the line's transfers, the office's cells, time; and every command. -/

namespace Sys2Proof.Machine

variable {s : State}

/-! ### The line (section 8.1) -/

/-- A state in which the line is heard: no line lock is barred. -/
theorem keeps_hearLine : Keeps s (hearLine s) := by
  refine Keeps.trans (t := { s with shots := { s.shots with lineState := .attended } })
    ⟨id, id, id, fun hl => ?_, id, id⟩ keeps_restartWatchdog
  obtain ⟨ha, hk⟩ := hl
  refine ⟨ha, fun l e he => ?_⟩
  obtain ⟨h1, h2, -⟩ := hk l e he
  exact ⟨h1, h2, fun _ => rfl⟩

theorem keeps_placeLineAnswer (a : Answer) : Keeps s (placeLineAnswer a s) :=
  Keeps.trans (t := if s.reqs.lineBuffer.isSome then s.raise .answerLost else s)
    (.ite (fun _ => keeps_raise _) fun _ => .refl s) (keeps_lineAnswer ..)

theorem keeps_takeLineRequest (ref : Half) (req : Request) : Keeps s (takeLineRequest ref req s) :=
  (keeps_hearLine.trans (keeps_handle (s := hearLine s) (m := .line) rfl req)).trans (keeps_placeLineAnswer _)

theorem keeps_beginTransfer : Keeps s (beginTransfer s) := keeps_lineAnswer ..

theorem keeps_endTransfer (t : Transfer) (count : Nat) : Keeps s (endTransfer t count s) := keeps_lineAnswer ..

/-- The release of chip select: the transfer under way, or one that began with it, ends (R139 step 1). -/
def transferReleased (count : Nat) (s : State) : State :=
  let s := if s.reqs.transfer = none then beginTransfer s else s
  match s.reqs.transfer with
  | none => s
  | some t => endTransfer t count s

theorem lineTransfer_eq (mosi : List Byte) (s : State) :
    lineTransfer mosi s =
      match decodeRequest mosi with
      | none => transferReleased mosi.length s
      | some (ref, req) => takeLineRequest ref req (transferReleased mosi.length s) := rfl

theorem keeps_transferReleased (count : Nat) : Keeps s (transferReleased count s) := by
  have hbegin : Keeps s (if s.reqs.transfer = none then beginTransfer s else s) :=
    .ite (fun _ => keeps_beginTransfer) fun _ => .refl s
  unfold transferReleased
  dsimp only
  split
  · exact hbegin
  · exact hbegin.trans (keeps_endTransfer ..)

theorem keeps_lineTransfer (mosi : List Byte) : Keeps s (lineTransfer mosi s) := by
  rw [lineTransfer_eq]
  split
  · exact keeps_transferReleased _
  · exact (keeps_transferReleased _).trans (keeps_takeLineRequest ..)

/-- The expiry of the line watchdog, with the end of the line's locks that goes with it (R39). -/
theorem keeps_silenceLine : Keeps s (silenceLine s) where
  budgets := id
  supervisors := id
  queues := id
  locks := fun hl => by
    obtain ⟨ha, hk⟩ := hl
    refine ⟨ha, fun l e he => ?_⟩
    obtain ⟨hheld, hm⟩ := lock_of_releaseLocks (s := s) (m := .line) he
    obtain ⟨h1, h2, -⟩ := hk l e hheld
    exact ⟨h1, h2, fun h => absurd h hm⟩
  link := id
  tables := id

/-! ### The office (section 8.2) -/

/-- What the handling of an office request leaves: the link state and the queued answers. -/
def SameOffice (s t : State) : Prop := t.link.state = s.link.state ∧ t.reqs.officeAnswers = s.reqs.officeAnswers

theorem SameOffice.refl (s : State) : SameOffice s s := ⟨rfl, rfl⟩

theorem SameOffice.trans {t u : State} (h : SameOffice s t) (g : SameOffice t u) : SameOffice s u :=
  ⟨g.1.trans h.1, g.2.trans h.2⟩

theorem sameOffice_visitPorts (ports : List Port) : SameOffice s (visitPorts ports s) := by
  rw [visitPorts_eq]; exact .refl s

theorem sameOffice_endWarmup (k : Port) : SameOffice s (endWarmup k s) := by
  rw [endWarmup_eq]
  unfold warmupEnded
  dsimp only
  split <;> exact .refl s

theorem sameOffice_writeEnable (k : Port) (v : Word) : SameOffice s (writeEnable k v s) := by
  unfold writeEnable enablePort enterWarmup
  split
  · split
    · exact .refl s
    · obtain ⟨-, -, -, -, -, hlink, hreqs, -⟩ := disablePort_spec k s
      exact ⟨congrArg Link.state hlink, congrArg Requests.officeAnswers hreqs⟩
  · split
    · split <;> exact .refl s
    · exact .refl s

theorem sameOffice_writeWarmupArmed (k : Port) (v : Word) : SameOffice s (writeWarmupArmed k v s) := by
  unfold writeWarmupArmed
  split
  · dsimp only
    split
    · exact sameOffice_endWarmup (s := s.modSup k _) k
    · exact .refl s
  · split <;> exact .refl s

theorem sameOffice_writeSetting (x : Setting) (v : Word) : SameOffice s (writeSetting x v s) := by
  cases x
  case port k f =>
    cases f
    case enable => exact sameOffice_writeEnable k v
    case warmupArmed => exact sameOffice_writeWarmupArmed k v
    all_goals exact .refl s
  case chan c f =>
    cases f
    case target =>
      change SameOffice s (writeTarget c v s)
      unfold writeTarget
      dsimp only
      split <;> exact .refl s
    all_goals exact .refl s
  case darkMask => exact sameOffice_visitPorts (s := { s with dark := _ }) _
  case mask whose f => cases whose <;> exact .refl s
  all_goals exact .refl s

theorem sameOffice_clearFault (k : Port) : SameOffice s (clearFault k s) := by
  rw [clearFault_eq]
  exact sameOffice_visitPorts _

theorem sameOffice_takeReceipt (port : Byte) (mark : Half) : SameOffice s (takeReceipt port mark s) := by
  unfold takeReceipt
  split
  · exact .refl s
  · dsimp only
    split <;> exact .refl s

theorem sameOffice_handleWrite (record field : Byte) (v : Word) :
    SameOffice s (handleWrite .office record field v s).1 := by
  unfold handleWrite
  split
  · exact .refl s
  · split
    · exact .refl s
    · split
      · exact .refl s
      · split
        · exact .refl s
        · split
          · exact .refl s
          · exact sameOffice_writeSetting ..

theorem sameOffice_handleWriteUnlock (record field : Byte) (v : Word) :
    SameOffice s (handleWriteUnlock .office record field v s).1 := by
  unfold handleWriteUnlock
  split
  · exact .refl s
  · split
    · exact .refl s
    · split
      · exact .refl s
      · split
        · exact .refl s
        · split
          · exact .refl s
          · exact (sameOffice_writeSetting ..).trans ⟨rfl, rfl⟩

/-- The requests of the office leave the link state and the queued answers (R131 refuses it RESTART_LINK). -/
theorem sameOffice_handle (req : Request) : SameOffice s (handle .office req s).1 := by
  cases req <;> dsimp only [handle]
  case write record field value => exact sameOffice_handleWrite ..
  case writeUnlock record field value => exact sameOffice_handleWriteUnlock ..
  case clearFault port =>
    unfold handleClearFault
    split
    · exact .refl s
    · exact sameOffice_clearFault _
  case receipt port mark => exact sameOffice_takeReceipt ..
  case read | lockRead | unlock | queryFrame | queryShot | recallFrame | hold | unhold | releaseKeep | readCounts =>
    dsimp only [handleRead, handleLockRead, handleUnlock, handleQueryFrame, handleQueryShot, handleRecall, handleSetHold,
      handleReleaseKeep, handleReadCounts]
    repeat' split
    all_goals exact .refl s
  all_goals exact .refl s

/-- An answer joins the office's queue, which has room for it (R134). -/
theorem keeps_officeAnswer {t : State} (h : Keeps s t) (hup : t.link.state = .up)
    (hroom : t.reqs.officeAnswers.length < 8) (a : Answer) :
    Keeps s { t with reqs := { t.reqs with officeAnswers := t.reqs.officeAnswers ++ [a] } } where
  budgets := h.budgets
  supervisors := h.supervisors
  queues := fun hq => by
    obtain ⟨hports, hr, hn, hw, -⟩ := h.queues hq
    exact ⟨hports, hr, hn, hw, by rw [List.length_append]; exact hroom⟩
  locks := fun hl => ⟨fun hne => absurd hup hne, (h.locks hl).2⟩
  link := h.link
  tables := h.tables

theorem keeps_answerOffice (ref : Half) (req : Request) (hup : s.link.state = .up)
    (hroom : s.reqs.officeAnswers.length < 8) : Keeps s (answerOffice ref req s) := by
  have h : Keeps s (handle .office req s).1 := keeps_handle (m := .office) hup req
  obtain ⟨hlink, hanswers⟩ := sameOffice_handle (s := s) req
  exact .ite (fun _ => keeps_officeAnswer h (hlink.trans hup) (by rw [hanswers]; exact hroom) _) fun _ => h

theorem keeps_officeRequestCell (req : Option (Half × Request)) (hup : s.link.state = .up) :
    Keeps s (officeRequestCell req s) := by
  refine .ite (fun _ => keeps_raise _) fun hfull => ?_
  split
  · exact .refl s
  · exact keeps_answerOffice _ _ hup (Nat.lt_of_not_le hfull)

theorem keeps_receiptCell (req : Option (Half × Request)) : Keeps s (receiptCell req s) := by
  unfold receiptCell
  split
  · exact keeps_takeReceipt ..
  · exact .refl s

theorem keeps_returnCell (cell : List Byte) : Keeps s (returnCell cell s) := by
  unfold returnCell
  split
  · exact .refl s
  · rename_i w hw
    refine .ite (fun _ => keeps_window hw) fun _ => (keeps_window (w' := { w with valid := w.valid + 1 }) hw).trans ?_
    refine .ite (fun hup => ?_) fun _ => .refl _
    split
    · exact keeps_officeRequestCell _ hup
    · exact keeps_receiptCell _
    · exact .refl _

theorem keeps_arrive (m : Master) (ref : Half) (req : Request) : Keeps s (arrive m ref req s) := by
  cases m
  · exact keeps_takeLineRequest ref req
  · exact .ite (fun hup => keeps_officeRequestCell _ hup) fun _ => .refl s

/-! ### Time -/

theorem Supervisor.itemsOk_tick {u : Supervisor} (h : u.itemsOk) : u.tick.itemsOk := by
  obtain ⟨h1, h2, h3, h4, h5, h6, h7, h8, h9, h10, h11⟩ := h
  refine ⟨h1, h2, h3, h4, h5, h6, h7, h8, h9, fun hs => ?_, fun hs => ?_⟩
  · obtain ⟨g1, g2, g3, g4⟩ := h10 hs
    exact ⟨g1, g2, g3, congrArg tickTimer g4⟩
  · obtain ⟨g1, g2⟩ := h11 hs
    exact ⟨g1, congrArg tickTimer g2⟩

theorem sup_tickTimers (s : State) (k : Port) : (tickTimers s).sup k = (s.sup k).tick := by
  simp [tickTimers, State.sup]

theorem lock_tickTimers (s : State) (l : Fin 13) :
    (tickTimers s).lock l = (s.lock l).map fun e => { e with remaining := e.remaining - 1 } := by
  simp [tickTimers, State.lock]

theorem keeps_tickTimers : Keeps s (tickTimers s) := by
  refine ⟨fun hb => ?_, fun hs k => ?_, fun hq => ?_, fun hl => ?_, fun hi => ?_, id⟩
  · obtain ⟨hc, hz⟩ := hb
    exact ⟨hc, fun k hk => hz k (by rw [sup_tickTimers] at hk; exact hk)⟩
  · rw [sup_tickTimers]; exact Supervisor.itemsOk_tick (hs k)
  · obtain ⟨hports, hr, hn, hw, ha⟩ := hq
    exact ⟨hports, hr, (List.length_map ..).trans_le hn, hw, ha⟩
  · obtain ⟨ha, hk⟩ := hl
    refine ⟨ha, fun l e he => ?_⟩
    rw [lock_tickTimers] at he
    obtain ⟨x, hx, rfl⟩ := Option.map_eq_some_iff.mp he
    obtain ⟨h1, h2, h3⟩ := hk l x hx
    exact ⟨(Nat.sub_le ..).trans h1, h2, h3⟩
  · obtain ⟨h1, h2, h3, h4, h5, h6⟩ := hi
    exact ⟨h1, h2, h3, h4, h5, fun hr => congrArg tickTimer (h6 hr)⟩

theorem keeps_tick : Keeps s (tick s) := keeps_tickTimers.trans (Keeps.eachPort (fun k _ => keeps_writerProgress k) _)

end Sys2Proof.Machine
end

section
/-! PROOFS. What every step keeps (7): power-on reset, every command, and the statements on what always holds. -/

namespace Sys2Proof.Machine

/-! ### Power-on reset -/

section

variable (straps : Straps) (light : Bool) (s : State)

theorem Channel.budgetOk_resetCamera (p : Level3) (g : Grade) : (Channel.resetCamera p g).budgetOk g := by
  unfold Channel.budgetOk
  cases p <;> cases g <;> decide

theorem Channel.budgetOk_resetRecall (g : Grade) : Channel.resetRecall.budgetOk g := by
  unfold Channel.budgetOk
  cases g <;> decide

theorem Supervisor.state_reset_ne_tripped (p : Level3) : (Supervisor.reset p).state ≠ .tripped := by
  cases p <;> decide

theorem Supervisor.itemsOk_reset (p : Level3) : (Supervisor.reset p).itemsOk := by
  unfold Supervisor.itemsOk
  cases p <;> decide

theorem Link.itemsOk_reset (g : Grade) : (Link.reset g light).itemsOk := by
  unfold Link.itemsOk
  cases light <;> cases g <;> decide

theorem budgetsOk_afterReset : (s.afterReset straps light).budgetsOk := by
  refine ⟨fun c => ?_, fun k hk => ?_⟩
  · rcases chan_cases c with ⟨k, rfl, -⟩ | ⟨rfl, -⟩
    · rw [State.chan_afterReset_camera]; exact Channel.budgetOk_resetCamera ..
    · rw [State.chan_afterReset_recall]; exact Channel.budgetOk_resetRecall _
  · rw [State.sup_afterReset] at hk
    exact absurd hk (Supervisor.state_reset_ne_tripped _)

theorem supervisorsOk_afterReset : (s.afterReset straps light).supervisorsOk := fun k => by
  rw [State.sup_afterReset]; exact Supervisor.itemsOk_reset _

theorem queuesOk_afterReset : (s.afterReset straps light).queuesOk := by
  refine ⟨fun k => ?_, Nat.zero_le _, Nat.zero_le _, Nat.zero_le _, Nat.zero_le _⟩
  rw [State.cam_afterReset, State.liveQueue_afterReset]
  exact ⟨Nat.zero_le _, Nat.zero_le _⟩

theorem locksOk_afterReset : (s.afterReset straps light).locksOk := by
  refine ⟨fun _ => rfl, fun l e he => ?_⟩
  rw [State.lock_afterReset] at he
  cases he

theorem tablesOk_afterReset : (s.afterReset straps light).tablesOk :=
  ⟨⟨.nil, fun _ h => by cases h⟩, ⟨.nil, fun _ h => by cases h⟩, ⟨.nil, fun _ h => by cases h⟩,
    ⟨.nil, fun _ h => by cases h⟩⟩

theorem keeps_afterReset : Keeps s (s.afterReset straps light) where
  budgets _ := budgetsOk_afterReset ..
  supervisors _ := supervisorsOk_afterReset straps light s
  queues _ := queuesOk_afterReset ..
  locks _ := locksOk_afterReset ..
  link _ := Link.itemsOk_reset ..
  tables _ := tablesOk_afterReset ..

end

/-- Settles O56: `State.reset` is the state after a power-on reset with every strap low. -/
theorem invariantsHoldAtReset : Obligations.InvariantsHoldAtReset :=
  ⟨budgetsOk_afterReset allLow false .reset, supervisorsOk_afterReset allLow false .reset,
    queuesOk_afterReset allLow false .reset, locksOk_afterReset allLow false .reset, Link.itemsOk_reset false _,
    tablesOk_afterReset allLow false .reset⟩

/-! ### Every command -/

variable {s t : State}

theorem keeps_throttleTimeout {k : Port} (h : (s.sup k).state = .throttled) :
    Keeps s (match (s.sup k).throttleExit with
      | .toTripped => enterTripped k (s.raisePort k .throttleTimeout)
      | .toUnguarded => enterUnguarded k (s.raisePort k .throttleTimeout)
      | .none => s) := by
  have hne : ((s.raisePort k .throttleTimeout).sup k).state ≠ .warmup := by
    change (s.sup k).state ≠ _
    rw [h]; decide
  split
  · exact (keeps_raisePort ..).trans (keeps_enterTripped hne)
  · exact (keeps_raisePort ..).trans (keeps_enterUnguarded hne)
  · exact .refl s

theorem keeps_lineWriteEnd (k : Port) :
    Keeps s (match writeState k s with
      | none => s
      | some (left, room) => if left ≤ room then finishLine k (placeBytes k left s) else s) := by
  split
  · exact .refl s
  · exact .ite (fun _ => (keeps_placeBytes ..).trans (keeps_finishLine k)) fun _ => .refl s

theorem keeps_pageRequest (k : Port) :
    Keeps s (match (s.cam k).staging, writeState k s with
      | l :: _, some (left, room) => if left ≤ room then s else askPage k l.owner (placeBytes k room s)
      | _, _ => s) := by
  split
  · exact .ite (fun _ => .refl s) fun _ => (keeps_placeBytes ..).trans (keeps_askPage ..)
  · exact .refl s

theorem keeps_deadlineExpiry (shot : Half) :
    Keeps s (match openShot shot s with
      | none => s
      | some h => if h.remaining = 0 then closeShot (automaticVerdict s) h s else s) := by
  split
  · exact .refl s
  · exact .ite (fun _ => keeps_closeShot ..) fun _ => .refl s

/-- Every command keeps the invariants. -/
theorem keeps_exec (c : Instr) (h : exec c s = .next t) : Keeps s t := by
  cases c <;> cases h
  case powerOnReset straps light => exact keeps_afterReset straps light s
  case storeInitEnd =>
    split
    · exact .refl s
    · exact keeps_storeInitEnd
  case laneOpen | laneLine | laneClose | laneUnrecognized => exact keeps_laneMessage ..
  case lineWriteEnd k => exact keeps_lineWriteEnd k
  case pageRequest k => exact keeps_pageRequest k
  case triggerEdge pin => exact .ite (fun _ => .refl s) fun _ => keeps_createShot ..
  case triggerSlotExpiry k => exact .ite (fun _ => keeps_expireSlot k) fun _ => .refl s
  case deadlineExpiry shot => exact keeps_deadlineExpiry shot
  case lineWatchdogExpiry => exact .ite (fun _ => keeps_silenceLine) fun _ => .refl s
  case lineTransfer mosi => exact keeps_lineTransfer mosi
  case lockExpiry l => exact .ite (fun _ => keeps_lock_released l) fun _ => .refl s
  case warmupExpiry k =>
    exact .ite (fun h => (keeps_raisePort ..).trans (keeps_endWarmup h.1)) fun _ => .refl s
  case roundMark => exact keeps_roundMark
  case slewStep c => exact keeps_modChan Channel.budgetOk_stepIfDue fun _ _ _ => Channel.zero_stepIfDue
  case trip k => exact keeps_tripIfDue k
  case calmReturn k => exact keeps_calmIfDue k
  case throttleTimeout k => exact .ite (fun h => keeps_throttleTimeout h.1) fun _ => .refl s
  case darkTestExpiry => exact .ite (fun _ => (keeps_raisePort ..).trans (keeps_visitPorts _)) fun _ => .refl s
  case dataSlot errors => exact (Keeps.foldl (fun _ e => keeps_spoilBlock e) errors s).trans keeps_dataSlot
  case controlSlot => exact keeps_controlSlot
  case receipt m ref port mark =>
    cases m
    · exact keeps_takeLineRequest ..
    · exact .ite (fun _ => keeps_takeReceipt ..) fun _ => .refl s
  case lossOfLight => exact keeps_loseLight
  case lightReturn => exact .ite (fun h => keeps_enterAligning (.inl h)) fun _ => .refl s
  case returnCell bytes => exact keeps_returnCell bytes
  case windowEnd => exact keeps_endWindow
  case recoveryExpiry => exact .ite (fun h => keeps_recoveryExpiry h.1) fun _ => .refl s
  case chipSelectAssertion => exact .ite (fun _ => keeps_beginTransfer) fun _ => .refl s
  all_goals exact keeps_arrive ..

/-- Every step keeps the invariants: a command, or a microsecond of time. -/
theorem keeps_step (h : step s = .next t) : Keeps s t := by
  unfold step at h
  split at h
  · rw [← Host.Outcome.next.inj h]
    exact keeps_tick
  · rename_i c rest _
    have hpending : Keeps s { s with pending := rest } := ⟨id, id, id, id, id, id⟩
    exact hpending.trans (keeps_exec c h)

/-- Settles O57, by the relation `Keeps` of a state and the next. -/
theorem stepsKeepBudgets : Obligations.StepsKeepBudgets := fun _ _ hs h => (keeps_step h).budgets hs

/-- Settles O58, by the relation `Keeps` of a state and the next. -/
theorem stepsKeepSupervisors : Obligations.StepsKeepSupervisors := fun _ _ hs h => (keeps_step h).supervisors hs

/-- Settles O59, by the relation `Keeps` of a state and the next. -/
theorem stepsKeepQueuesLocksAndLink : Obligations.StepsKeepQueuesLocksAndLink :=
  ⟨fun _ _ hs h => (keeps_step h).queues hs, fun _ _ hs h => (keeps_step h).locks hs,
    fun _ _ hs h => (keeps_step h).link hs⟩

/-- Settles O60, by the relation `Keeps` of a state and the next. -/
theorem stepsKeepTables : Obligations.StepsKeepTables := fun _ _ hs h => (keeps_step h).tables hs

end Sys2Proof.Machine
end

section
/-! PROOFS. Steps, reset settings and lane messages that a port discards (R2, R82, R178). -/

namespace Sys2Proof.Machine

/-- Settles O1: it is the definition of a step. -/
theorem stepRunsFrontCommand : Obligations.StepRunsFrontCommand := fun _ _ _ => rfl

/-- Settles O49: one case for each setting. -/
theorem writeReadsBackStored : Obligations.WriteReadsBackStored := by
  intro s x v hv
  exact readSetting_writeSetting hv s

/-! ### PSTART and GRADE (R82) -/

theorem targetAtReset_of_ne_low {p : Level3} (h : p ≠ .low) (g : Level2) :
    targetAtReset p (gradeOf g) = if g = .high then 288 else 144 := by
  cases p <;> cases g <;> first | exact absurd rfl h | rfl

theorem Supervisor.state_reset (p : Level3) : (Supervisor.reset p).state = if p = .low then .disabled else .run := by
  cases p <;> rfl

theorem readSetting_enable (s : State) (k : Port) :
    readSetting s (.port k .enable) = wordOf (if (s.sup k).state = .disabled then 0 else 1) :=
  congrArg wordOf (bitCode_ne_disabled _)

/-- Settles O4, from the reset values by strap. -/
theorem pstartSetsPorts : Obligations.PstartSetsPorts := by
  intro straps light s
  refine ⟨_, exec_powerOnReset straps light s, fun k => ⟨fun hlow => ?_, fun hne => ?_, ?_, ?_, ?_, rfl⟩⟩
  case refine_3 | refine_4 | refine_5 => rw [State.sup_afterReset]; rfl
  · have hstate : ((s.afterReset straps light).sup k).state = .disabled := by
      rw [State.sup_afterReset, Supervisor.state_reset, if_pos hlow]
    rw [readSetting_enable, if_pos hstate, State.chan_afterReset_camera, State.dark_afterReset, hlow]
    exact ⟨hstate, rfl, rfl, rfl, rfl, rfl⟩
  · have hstate : ((s.afterReset straps light).sup k).state = .run := by
      rw [State.sup_afterReset, Supervisor.state_reset, if_neg hne]
    rw [readSetting_enable, hstate, State.chan_afterReset_camera, State.dark_afterReset,
      DarkDetector.reset_of_ne_low hne]
    exact ⟨rfl, rfl, targetAtReset_of_ne_low hne _, rfl, rfl, rfl⟩

/-! ### Messages discarded or not recognized (R2, R178) -/

theorem laneMessage_of_not_receiving {s : State} {k : Port}
    (h : (s.sup k).state = .disabled ∨ (s.sup k).state = .tripped) (msg : Option LaneMessage) :
    laneMessage k msg s = s.count k .discardedState := by
  unfold laneMessage receives
  rcases h with h | h <;> simp [h]

section

variable {s : State} {k : Port} (h : receiving (s.sup k).state)

include h

theorem laneMessage_unrecognized : laneMessage k none s = s := by
  unfold laneMessage
  rw [if_pos (receives_of_receiving h)]

theorem exec_laneOpen_of_receiving (counter width height : Half) (bpp : Byte) :
    exec (.laneOpen k counter width height bpp) s = .next (takeOpen k counter width height bpp s) := by
  change Host.Outcome.next (laneMessage k (some (.opening counter width height bpp)) s) = _
  unfold laneMessage
  rw [if_pos (receives_of_receiving h)]

theorem exec_laneClose_of_receiving (count : Half) :
    exec (.laneClose k count) s = .next (takeClose k count s) := by
  change Host.Outcome.next (laneMessage k (some (.closing count)) s) = _
  unfold laneMessage
  rw [if_pos (receives_of_receiving h)]

end

/-- Messages that R178 does not recognize: another first byte, or too short for their kind. -/
theorem decodeLane_eq_none {msg : List Byte}
    (h : (byteAt msg 0 ≠ 1 ∧ byteAt msg 0 ≠ 2 ∧ byteAt msg 0 ≠ 3) ∨ (byteAt msg 0 = 1 ∧ msg.length < 8) ∨
      (byteAt msg 0 = 2 ∧ msg.length < 7) ∨ (byteAt msg 0 = 3 ∧ msg.length < 3)) : decodeLane msg = none := by
  have first (b : Byte) : (byteAt msg 0).toNat = b.toNat → byteAt msg 0 = b := BitVec.eq_of_toNat_eq
  unfold decodeLane
  rcases h with ⟨h1, h2, h3⟩ | ⟨h, hl⟩ | ⟨h, hl⟩ | ⟨h, hl⟩
  · split
    · exact absurd (first 1 ‹_›) h1
    · exact absurd (first 2 ‹_›) h2
    · exact absurd (first 3 ‹_›) h3
    · rfl
  all_goals rw [h]; exact if_pos hl

/-- Settles O5. -/
theorem discardedAndUnknownLaneMessages : Obligations.DiscardedAndUnknownLaneMessages := by
  refine ⟨fun s k h => ?_, fun s k msg h hmsg => ?_⟩
  · have hmsg (msg : Option LaneMessage) :
        Host.Outcome.next (laneMessage k msg s) =
          (.next (s.count k .discardedState) : Host.Outcome State Fault Refusal) :=
      congrArg _ (laneMessage_of_not_receiving h msg)
    exact ⟨fun _ _ _ _ => hmsg _, fun _ _ _ _ => hmsg _, fun _ => hmsg _, fun _ => hmsg _⟩
  · refine congrArg Host.Outcome.next (Eq.trans ?_ (laneMessage_unrecognized h))
    rw [decodeLane_eq_none hmsg]

end Sys2Proof.Machine
end

section
/-! PROOFS. An OPEN taken by the reception logic: refused, or accepted with a record (sections 1.2, 2.4, 3.2). -/

namespace Sys2Proof.Machine

variable {s t : State} {k : Port} {n : Nat} {counter width height : Half} {bpp : Byte}

/-! ### A record request (R46, R47) -/

theorem supplyRecord_of_cons {rest : List Nat} (h : t.store.freeRecords = n :: rest) :
    supplyRecord t = (some n, { t with store := { t.store with freeRecords := rest } }) := by
  simp [supplyRecord, h]

theorem supplyRecord_of_victim (h : t.store.freeRecords = []) (hv : victim t = some n) :
    supplyRecord t = (some n, { evict n t with store := { (evict n t).store with freeRecords := [] } }) := by
  have hfree : (evict n t).store.freeRecords = [n] := by
    change t.store.freeRecords ++ [n] = _
    rw [h, List.nil_append]
  simp [supplyRecord, h, hv, hfree]

theorem supplyRecord_of_no_victim (h : t.store.freeRecords = []) (hv : victim t = none) :
    supplyRecord t = (none, t) := by
  simp [supplyRecord, h, hv]

theorem requestRecord_of_unnamed (h : t.lookup k (t.cam k).nextFrame = none) : requestRecord k t = supplyRecord t := by
  simp [requestRecord, h]

theorem requestRecord_of_evictable (h : t.lookup k (t.cam k).nextFrame = some n)
    (he : (t.record n).evictable t.store.evictSent = true) : requestRecord k t = supplyRecord (evict n t) := by
  simp [requestRecord, h, he]

theorem requestRecord_of_held (h : t.lookup k (t.cam k).nextFrame = some n)
    (he : (t.record n).evictable t.store.evictSent = false) : requestRecord k t = (none, t) := by
  simp [requestRecord, h, he]

/-! ### The state an OPEN acts on (R3 step 1) -/

/-- The state an OPEN acts on: outside ASSEMBLING as it stands, in ASSEMBLING with the assembling frame cut short. -/
def openActsOn (k : Port) (s t : State) : Prop :=
  ((s.cam k).receive ≠ .assembling ∧ t = s) ∨
    ∃ a, (s.cam k).receive = .assembling ∧ (s.cam k).current = some a ∧ t = openTruncated k a s

theorem openActsOn.phase (h : openActsOn k s t) : t.store.phase = s.store.phase := by
  rcases h with ⟨-, rfl⟩ | ⟨a, -, -, rfl⟩
  · rfl
  · exact (openTruncated_frame s k a).1

theorem openActsOn.nextFrame (h : openActsOn k s t) : (t.cam k).nextFrame = (s.cam k).nextFrame := by
  rcases h with ⟨-, rfl⟩ | ⟨a, -, -, rfl⟩
  · rfl
  · exact (openTruncated_frame s k a).2

theorem takeOpen_eq (h : openActsOn k s t) :
    takeOpen k counter width height bpp s =
      if oversize width.toNat height.toNat bpp.toNat then refusedOpen k .oversize t
      else if s.store.phase = .initializing then refusedOpen k .refused t
      else match requestRecord k t with
        | (none, u) => refusedOpen k .refused u
        | (some n, u) => acceptFrame k n counter width height bpp u := by
  have ht : (if (s.cam k).receive = .assembling then truncateByOpen k s else s) = t := by
    rcases h with ⟨hr, rfl⟩ | ⟨a, hr, hc, rfl⟩
    · exact if_neg hr
    · rw [if_pos hr, truncateByOpen_eq hc]
  unfold takeOpen
  rw [ht]
  dsimp only
  rw [h.phase]
  rfl

theorem takeOpen_of_oversize (h : openActsOn k s t) (hd : ¬dimensionsOk width.toNat height.toNat bpp.toNat) :
    takeOpen k counter width height bpp s = refusedOpen k .oversize t := by
  have ho : oversize width.toNat height.toNat bpp.toNat = true := by
    rw [← Bool.not_eq_false, oversize_eq_false_iff]
    exact hd
  rw [takeOpen_eq h, if_pos ho]

section

variable (h : openActsOn k s t) (hd : dimensionsOk width.toNat height.toNat bpp.toNat)

include h hd

theorem takeOpen_of_initializing (hp : s.store.phase = .initializing) :
    takeOpen k counter width height bpp s = refusedOpen k .refused t := by
  rw [takeOpen_eq h, (oversize_eq_false_iff ..).mpr hd, if_neg Bool.false_ne_true, if_pos hp]

theorem takeOpen_of_none (hp : s.store.phase = .ready) (hr : requestRecord k t = (none, t)) :
    takeOpen k counter width height bpp s = refusedOpen k .refused t := by
  rw [takeOpen_eq h, (oversize_eq_false_iff ..).mpr hd, if_neg Bool.false_ne_true, if_neg (by rw [hp]; decide), hr]

theorem takeOpen_of_some {u : State} (hp : s.store.phase = .ready) (hr : requestRecord k t = (some n, u)) :
    takeOpen k counter width height bpp s = acceptFrame k n counter width height bpp u := by
  rw [takeOpen_eq h, (oversize_eq_false_iff ..).mpr hd, if_neg Bool.false_ne_true, if_neg (by rw [hp]; decide), hr]

end

/-- Settles O8: one way of refusal after the other, in the order of R3. -/
theorem openRefusedOrTruncating : Obligations.OpenRefusedOrTruncating := by
  intro s t k counter width height bpp hr ht
  have hnext := openActsOn.nextFrame ht
  have run := exec_laneOpen_of_receiving hr counter width height bpp
  refine ⟨fun hd => ?_, fun hd hp => ?_, fun n hd hp hl he => ?_, fun hd hp hl hf hv => ?_⟩
  · exact run.trans (congrArg _ (takeOpen_of_oversize ht hd))
  · exact run.trans (congrArg _ (takeOpen_of_initializing ht hd hp))
  · rw [← hnext] at hl
    exact run.trans (congrArg _ (takeOpen_of_none ht hd hp (requestRecord_of_held hl he)))
  · rw [← hnext] at hl
    have hnone : requestRecord k t = (none, t) :=
      (requestRecord_of_unnamed hl).trans (supplyRecord_of_no_victim hf (victim_eq_none hv))
    exact run.trans (congrArg _ (takeOpen_of_none ht hd hp hnone))

/-! ### An accepted frame (R4, R5, R29, R85) -/

theorem matchFrame_of_none (h : shotFor k s = none) : matchFrame k n s = s.count k .freeRun := by
  unfold shotFor at h
  simp only [matchFrame, h]

/-- A record once its frame is matched to a shot (R29). -/
def FrameRecord.matched (g : Shot) (r : FrameRecord) : FrameRecord :=
  { r with shot := some g.number, verdictPending := true, keep := r.keep || g.keep, tag := g.tag.or r.tag }

/-- A shot once record `n` of port `k` is matched to it (R29). -/
def Shot.matched (k : Port) (n : Nat) (g : Shot) : Shot :=
  { g with seen := g.seen ||| portBit k, refs := g.refs ++ [(k, n)] }

theorem matchFrame_of_some {g : Shot} (h : shotFor k s = some g) :
    matchFrame k n s = (modShot g.number (Shot.matched k n) s).modRecord n (FrameRecord.matched g) := by
  unfold shotFor at h
  simp only [matchFrame, h]
  rfl

/-- A port that begins to assemble record `n` (R4). -/
def CameraPort.opened (n : Nat) (c : CameraPort) : CameraPort :=
  { c with
    receive := .assembling, current := some n, expected := 0, linesReceived := 0, bytesAccepted := 0
    nextFrame := c.nextFrame + 1 }

/-- The device with a record filled and named and the port assembling it, before the frame is matched (R4). -/
def opening (k : Port) (n : Nat) (r : FrameRecord) (s : State) : State :=
  ((s.setRecord n r).setLookup k (s.cam k).nextFrame (some n)).modCam k (CameraPort.opened n)

/-- A change of the record just filled is a filling with it changed. -/
theorem modRecord_opening (number : Half) (f : Shot → Shot) (F : FrameRecord → FrameRecord) {r : FrameRecord}
    (hr : r.state ≠ .free) (hF : (F r).state ≠ .free) :
    (modShot number f (opening k n r s)).modRecord n F = modShot number f (opening k n (F r) s) :=
  State.setRecord_modRecord
    (modShot number f ((s.setLookup k (s.cam k).nextFrame (some n)).modCam k (CameraPort.opened n))) n r F hr hF

/-- The record of an accepted frame that no shot waits for. -/
theorem acceptedRecord_of_none (h : shotFor k t = none) :
    acceptedRecord k counter width height bpp t = openedRecord k (t.cam k).nextFrame counter width height bpp := by
  simp [acceptedRecord, h, openedRecord, FrameRecord.blank]

theorem acceptedRecord_of_some {g : Shot} (h : shotFor k t = some g) :
    acceptedRecord k counter width height bpp t =
      (openedRecord k (t.cam k).nextFrame counter width height bpp).matched g := by
  simp [acceptedRecord, h, openedRecord, FrameRecord.blank, FrameRecord.matched]

/-- A frame with record `n`, `rest` being the free records left, is accepted as the statements write it out. -/
theorem acceptFrame_eq (rest : List Nat) :
    acceptFrame k n counter width height bpp { t with store := { t.store with freeRecords := rest } } =
      acceptedOpen k counter width height bpp n rest t := by
  let r := openedRecord k (t.cam k).nextFrame counter width height bpp
  let u : State := { t with store := { t.store with freeRecords := rest } }
  change darkOpenAccepted k ((matchFrame k n (opening k n r u)).count k .framesOpened) = _
  have hfor : shotFor k (opening k n r u) = shotFor k t := rfl
  have hr : r.state ≠ .free := fun h => RecState.noConfusion h
  cases hs : shotFor k t with
  | none =>
    rw [matchFrame_of_none (hfor.trans hs)]
    unfold acceptedOpen matchedShots
    rw [acceptedRecord_of_none hs, hs]
    rfl
  | some g =>
    rw [matchFrame_of_some (hfor.trans hs), modRecord_opening g.number (Shot.matched k n) (FrameRecord.matched g) hr hr]
    unfold acceptedOpen matchedShots
    rw [acceptedRecord_of_some hs, hs]
    dsimp only
    rw [if_neg (Option.some_ne_none g)]
    rfl

/-- Settles O7: the ways to a record, each through its answer to the record request. -/
theorem openAcceptedFillsRecord : Obligations.OpenAcceptedFillsRecord := by
  intro s t k counter width height bpp hr hd hp ht
  have hnext := openActsOn.nextFrame ht
  have run := exec_laneOpen_of_receiving hr counter width height bpp
  refine ⟨fun n rest hl hf => ?_, fun v hl hf hv => ?_, fun c n rest hl he hf => ?_⟩
  all_goals rw [← hnext] at hl
  · have hsome := (requestRecord_of_unnamed hl).trans (supplyRecord_of_cons hf)
    exact run.trans (congrArg _ ((takeOpen_of_some ht hd hp hsome).trans (acceptFrame_eq rest)))
  · have hsome := (requestRecord_of_unnamed hl).trans (supplyRecord_of_victim hf hv)
    exact run.trans (congrArg _ ((takeOpen_of_some ht hd hp hsome).trans (acceptFrame_eq [])))
  · have hfree : (evict c t).store.freeRecords = n :: rest := hf
    have hsome := (requestRecord_of_evictable hl he).trans (supplyRecord_of_cons hfree)
    exact run.trans (congrArg _ ((takeOpen_of_some ht hd hp hsome).trans (acceptFrame_eq rest)))

end Sys2Proof.Machine
end

section
/-! PROOFS. A LINE tested and staged, a CLOSE, and the placement of a completed record (sections 1.3, 1.4, 1.6). -/

namespace Sys2Proof.Machine

variable {s : State} {k : Port} {n : Nat} {index length check : Half} {payload : List Byte}

/-! ### Lines (R7 to R10) -/

theorem takeLineMessage_of_assembling (hr : (s.cam k).receive = .assembling) (hc : (s.cam k).current = some n) :
    takeLineMessage k index length check payload s = assembleLine k n index length check payload s := by
  simp only [takeLineMessage, hr, hc]

theorem malformed_eq_false_iff :
    malformed length payload = false ↔
      length.toNat = payload.length ∧ 1 ≤ payload.length ∧ payload.length ≤ 16384 := by
  simp only [malformed, Bool.or_eq_false_iff, decide_eq_false_iff_not]
  omega

theorem FrameRecord.state_flagIf (r : FrameRecord) (c : Bool) (f : LaneFlag) : (r.flagIf c f).state = r.state := by
  rw [FrameRecord.flagIf_eq]

/-- The tests of a line's length and check sum, one flag after the other (R8). -/
def FrameRecord.payloadTested (check : Half) (payload : List Byte) (r : FrameRecord) : FrameRecord :=
  (r.flagIf (payload.length ≠ r.width * r.bpp) .length).flagIf (sum16 payload ≠ check) .check

/-- The flags set one by one are those the statements name at once. -/
theorem flags_lineTests (r : FrameRecord) (expected : Nat) :
    (r.flagIf (index.toNat ≠ expected) .sequence).payloadTested check payload =
      { r with flags := r.flags ||| lineTests expected r index check payload } := by
  simp only [FrameRecord.payloadTested, FrameRecord.flagIf_eq, lineTests, BitVec.or_assoc, decide_eq_true_eq]
  rfl

/-- A LINE of an assembling record: counted and tested, then malformed, or on to staging (R7, R8). -/
theorem assembleLine_eq {r : FrameRecord} (hr : s.record n = r) (hf : r.state ≠ .free) :
    assembleLine k n index length check payload s =
      if malformed length payload then
        (s.modCam k fun p => p.lineSeen index).setRecord n
          { r with flags := r.flags ||| (if index.toNat ≠ (s.cam k).expected then 1 else 0) ||| 4 }
      else
        stageLine k n payload ((s.modCam k fun p => p.lineSeen index).setRecord n
          { r with flags := r.flags ||| lineTests (s.cam k).expected r index check payload }) := by
  let seen := s.modCam k fun p => p.lineSeen index
  let q := r.flagIf (index.toNat ≠ (s.cam k).expected) .sequence
  have hq : q.state ≠ .free := by rw [FrameRecord.state_flagIf]; exact hf
  have hseq : (seen.modRecord n fun r => r.flagIf (index.toNat ≠ (s.cam k).expected) .sequence) =
      seen.setRecord n q := by
    rw [State.modRecord_eq, show seen.record n = r from hr]
  change (if malformed length payload then (seen.modRecord n _).modRecord n fun r => r.flag .length
    else stageLine k n payload ((seen.modRecord n _).modRecord n (FrameRecord.payloadTested check payload))) = _
  rw [hseq, State.setRecord_modRecord _ _ _ _ hq hq, State.setRecord_modRecord _ _ _ _ hq (by
    rw [flags_lineTests]; exact hf), flags_lineTests]
  simp only [q, FrameRecord.flagIf_eq, FrameRecord.flag, decide_eq_true_eq]
  rfl

/-- The staging of a line, where the 512-page limit leaves the frame `room` (R9, R10). -/
theorem stageLine_setRecord {t : State} {r : FrameRecord} {room : Nat} (hf : r.state ≠ .free)
    (hroom : 33554432 - (t.cam k).bytesAccepted = room) :
    stageLine k n payload (t.setRecord n r) =
      let q := r.flagIf (room < payload.length) .length
      if payload.take room = [] then t.setRecord n q
      else if (t.cam k).staging.length < 8 then
        (t.setRecord n q).modCam k fun c =>
          { c with
            bytesAccepted := c.bytesAccepted + (payload.take room).length
            staging := c.staging ++ [{ payload := payload.take room, owner := n }] }
      else (t.setRecord n (q.flag .overrun)).count k .overrunLines := by
  let q := r.flagIf (room < payload.length) .length
  have hq : q.state ≠ .free := by rw [FrameRecord.state_flagIf]; exact hf
  have hlength : ((t.setRecord n r).modRecord n fun r => r.flagIf (room < payload.length) .length) =
      t.setRecord n q := State.setRecord_modRecord _ _ _ _ hf hq
  have hover : ((t.setRecord n q).modRecord n fun r => r.flag .overrun) = t.setRecord n (q.flag .overrun) :=
    State.setRecord_modRecord _ _ _ _ hq hq
  unfold stageLine Config.frameLimit
  dsimp only
  rw [State.cam_setRecord, hroom, hlength, hover]
  rfl

/-- Settles O9: the tests, then what the room left and the staging buffer allow. -/
theorem lineTestedAndStaged : Obligations.LineTestedAndStaged := by
  intro s k index length check payload n r hrec hasm hcur hr hfill seq tested room seen ok
  have hf : r.state ≠ .free := by rw [hfill]; decide
  have run : exec (.laneLine k index length check payload) s = .next (assembleLine k n index length check payload s) :=
    (exec_laneLine_of_receiving hrec ..).trans (congrArg _ (takeLineMessage_of_assembling hasm hcur))
  have hcam : seen.cam k = (s.cam k).lineSeen index := State.cam_modCam ..
  have hstage := stageLine_setRecord (k := k) (n := n) (payload := payload) (t := seen) (room := room)
    (r := { r with flags := tested }) hf (by rw [hcam]; rfl)
  rw [hcam, show ((s.cam k).lineSeen index).staging = (s.cam k).staging from rfl] at hstage
  have staged (hok : ok) : exec (.laneLine k index length check payload) s =
      .next (stageLine k n payload (seen.setRecord n { r with flags := tested })) := by
    rw [run, assembleLine_eq hr.symm hf, malformed_eq_false_iff.mpr hok, if_neg Bool.false_ne_true]
  have hne (hok : ok) : 0 < payload.length := hok.2.1
  clear_value room
  refine ⟨fun hok => ?_, fun hok hfit hlt => ?_, fun hok hcut hroom hlt => ?_, fun hok hroom => ?_,
    fun hok hfit hfull => ?_, fun hok hcut hroom hfull => ?_⟩
  · have hmal : malformed length payload = true := by
      rw [← Bool.not_eq_false, malformed_eq_false_iff]; exact hok
    rw [run, assembleLine_eq hr.symm hf, if_pos hmal]
  all_goals
    rw [staged hok, hstage]
    have hpos := hne hok
    dsimp only
  · have hnil : payload ≠ [] := List.ne_nil_of_length_pos hpos
    rw [List.take_of_length_le hfit, if_neg hnil, if_pos hlt, decide_eq_false (Nat.not_lt.mpr hfit)]
    rfl
  · have hnil : payload.take room ≠ [] := List.ne_nil_of_length_pos (by rw [List.length_take]; omega)
    rw [if_neg hnil, if_pos hlt, decide_eq_true hcut, List.length_take_of_le (Nat.le_of_lt hcut)]
    rfl
  · rw [hroom, List.take_zero, if_pos rfl, decide_eq_true hpos]
    rfl
  · have hnil : payload ≠ [] := List.ne_nil_of_length_pos hpos
    rw [List.take_of_length_le hfit, if_neg hnil, if_neg (Nat.not_lt.mpr hfull), decide_eq_false (Nat.not_lt.mpr hfit)]
    rfl
  · have hnil : payload.take room ≠ [] := List.ne_nil_of_length_pos (by rw [List.length_take]; omega)
    rw [if_neg hnil, if_neg (Nat.not_lt.mpr hfull), decide_eq_true hcut]
    rfl

/-! ### Closes (R11) -/

/-- The end of an assembly, by whether a line of the record is still staged. -/
theorem endAssembly_eq (k : Port) (n : Nat) (u : State) :
    endAssembly k n u =
      if (u.cam k).hasStaged n then
        u.modCam k fun c => { c with current := none, completion := c.completion ++ [n] }
      else complete k n (u.modCam k fun c => { c with current := none }) := by
  unfold endAssembly
  dsimp only
  rw [State.cam_modCam, State.modCam_modCam]
  rfl

/-- A CLOSE of an assembling record: flagged COUNT if the line counts differ, then its assembly ends. -/
theorem takeClose_of_assembling {count : Half} (hr : (s.cam k).receive = .assembling)
    (hc : (s.cam k).current = some n) :
    takeClose k count s =
      endAssembly k n ((s.setRecord n { s.record n with
        flags := (s.record n).flags ||| if count.toNat ≠ (s.cam k).linesReceived then 8 else 0 }).modCam k fun c =>
          { c with receive := .idle, expected := 0, linesReceived := 0 }) := by
  have hflag : (s.record n).flagIf (count.toNat ≠ (s.cam k).linesReceived) .count =
      { s.record n with
        flags := (s.record n).flags ||| if count.toNat ≠ (s.cam k).linesReceived then 8 else 0 } := by
    simp only [FrameRecord.flagIf_eq, decide_eq_true_eq]
    rfl
  rw [← hflag]
  simp only [takeClose, hr, hc]
  rfl

/-- Settles O10. -/
theorem closeEndsFrame : Obligations.CloseEndsFrame := by
  intro s k count hrec
  have run := exec_laneClose_of_receiving hrec count
  refine ⟨fun hr => ?_, fun hr => ?_, fun n hr hc => ?_⟩
  · exact run.trans (congrArg _ (by simp only [takeClose, hr]))
  · exact run.trans (congrArg _ (by simp only [takeClose, hr]))
  refine ⟨fun hstaged _ => ?_, fun hstaged _ => ?_⟩
  all_goals rw [run, takeClose_of_assembling hr hc, endAssembly_eq, State.cam_modCam, State.modCam_modCam,
    State.modCam_modCam]
  · have hany : (s.cam k).hasStaged n = true := by simpa [CameraPort.hasStaged] using hstaged
    exact congrArg Host.Outcome.next (if_pos hany)
  · have hnone : ¬(s.cam k).hasStaged n = true := by simpa [CameraPort.hasStaged] using hstaged
    exact congrArg Host.Outcome.next (if_neg hnone)

/-! ### Placement (R14 to R17, R68, R73) -/

section Placement

variable {u : State}

theorem placeRecord_of_clean (h : (u.record n).flags = 0 ∨ (u.cam k).policy = .send) :
    placeRecord k n u = placeClean k n u := by
  unfold placeRecord FrameRecord.damaged
  rcases h with h | h
  · simp [h]
  · split
    · rw [h]
    · rfl

theorem placeRecord_of_hold (h : (u.record n).flags ≠ 0) (hp : (u.cam k).policy = .hold) :
    placeRecord k n u = holdRecord n u := by
  unfold placeRecord FrameRecord.damaged
  rw [if_pos (decide_eq_true h), hp]

theorem placeRecord_of_discard (h : (u.record n).flags ≠ 0) (hp : (u.cam k).policy = .discard) :
    placeRecord k n u = discardRecord k n u := by
  unfold placeRecord FrameRecord.damaged
  rw [if_pos (decide_eq_true h), hp]

theorem placeClean_of_free (h : (u.record n).keep = true ∨ (u.sup k).state ≠ .throttled) :
    placeClean k n u = queueOrHold k n u := by
  unfold placeClean
  refine if_neg fun ⟨hk, ht⟩ => ?_
  rcases h with h | h
  · rw [h] at hk; cases hk
  · exact h ht

theorem placeClean_of_throttled (h : (u.record n).keep = false) (ht : (u.sup k).state = .throttled) :
    placeClean k n u = decimate k n u := if_pos ⟨h, ht⟩

theorem queueOrHold_eq {r : FrameRecord} (h : u.record n = r) :
    queueOrHold k n u =
      if (u.liveQueue k).length < 64 then
        (u.setLive k (u.liveQueue k ++ [n])).setRecord n { r with state := .queued }
      else (u.setRecord n { r with state := .held }).count k .queueFull := by
  subst h; rfl

theorem sup_queueOrHold (j : Port) : (queueOrHold k n u).sup j = u.sup j := by
  unfold queueOrHold
  split <;> rfl

/-- A decimation step: held but for every so many records, and the count advanced (R73). -/
theorem decimate_eq {r : FrameRecord} (h : u.record n = r) :
    decimate k n u =
      (if (u.sup k).decimationCount ≠ 0 then (u.setRecord n { r with state := .held }).count k .heldThrottle
        else queueOrHold k n u).modSup k
        fun v => { v with decimationCount := (v.decimationCount + 1) % decimationOf v.decimation } := by
  unfold decimate
  dsimp only
  by_cases hc : (u.sup k).decimationCount = 0
  · rw [if_pos hc, if_neg (not_not.mpr hc)]
    refine State.modSup_congr _ _ ?_
    rw [sup_queueOrHold]
  · rw [if_neg hc, if_pos hc]
    subst h
    rfl

/-- What the warm-up's count of completions leaves (R14, R68). -/
theorem warmupCompletion_frame (k : Port) (u : State) :
    (warmupCompletion k u).store = u.store ∧ (warmupCompletion k u).cams = u.cams ∧
      (warmupCompletion k u).uplink = u.uplink := by
  unfold warmupCompletion
  split
  · split
    · exact ⟨rfl, rfl, rfl⟩
    · rw [endWarmup_eq]
      unfold warmupEnded
      dsimp only
      split <;> exact ⟨rfl, rfl, rfl⟩
  · exact ⟨rfl, rfl, rfl⟩

theorem warmupCompletion_of_ne (h : (u.sup k).state ≠ .warmup) : warmupCompletion k u = u := if_neg h

theorem state_warmupCompletion (h : (u.sup k).state ≠ .throttled) :
    ((warmupCompletion k u).sup k).state ≠ .throttled := by
  unfold warmupCompletion
  split
  · split
    · rw [State.sup_modSup]; exact h
    · unfold endWarmup
      rw [sup_darkWarmupEnded, State.sup_modSup]
      exact SupState.noConfusion
  · exact h

theorem warmupCompletion_eq (k : Port) (u : State) :
    warmupCompletion k u =
      if (u.sup k).state ≠ .warmup then u
      else if (u.sup k).warmupCompletions = 0 then u.modSup k fun p => { p with warmupCompletions := 1 }
      else warmupEnded k u := by
  unfold warmupCompletion
  rw [endWarmup_eq, ite_not]

end Placement

/-- Settles O11: the placement of the record in the state the warm-up's count leaves. -/
theorem completionPlacesRecord : Obligations.CompletionPlacesRecord := by
  intro s t u k n r hr hfill aged ht hu
  have hsup : t.sup k = s.sup k := by rw [ht]; split <;> rfl
  have hcomplete : complete k n s = placeRecord k n u := by
    rw [hu, ← hsup, ← warmupCompletion_eq, ht, hr]
    rfl
  obtain ⟨hstore, hcams, huplink⟩ := warmupCompletion_frame k t
  rw [warmupCompletion_eq, hsup, ← hu] at hstore hcams huplink
  have hrec : u.record n = r := by
    have hcat : t.store.catalogue = s.store.catalogue := by rw [ht]; split <;> rfl
    unfold State.record
    rw [hstore, hcat, hr]
    rfl
  have hpolicy : (u.cam k).policy = (s.cam k).policy := by
    have hcam : (t.cam k).policy = (s.cam k).policy := by rw [ht, State.cam_modCam]; split <;> rfl
    rw [← hcam]
    unfold State.cam
    rw [hcams]
  have hlive : u.liveQueue k = s.liveQueue k := by
    have huplink' : t.uplink = s.uplink := by rw [ht]; split <;> rfl
    unfold State.liveQueue
    rw [huplink, huplink']
  have hthrottled : (s.sup k).state = .throttled → u = t := fun h => by
    rw [hu, if_pos (by rw [h]; exact SupState.noConfusion)]
  have hfree : (s.sup k).state ≠ .throttled → (u.sup k).state ≠ .throttled := fun h => by
    rw [hu, ← hsup, ← warmupCompletion_eq]
    exact state_warmupCompletion (by rw [hsup]; exact h)
  have placed (hclean : r.flags = 0 ∨ (s.cam k).policy = .send) : complete k n s = placeClean k n u :=
    hcomplete.trans (placeRecord_of_clean (by rw [hrec, hpolicy]; exact hclean))
  have queued (hclean : r.flags = 0 ∨ (s.cam k).policy = .send)
      (hnot : r.keep = true ∨ (s.sup k).state ≠ .throttled) : complete k n s = queueOrHold k n u :=
    (placed hclean).trans (placeClean_of_free (by rw [hrec]; exact hnot.imp_right hfree))
  have hqueue := queueOrHold_eq (k := k) hrec
  rw [hlive] at hqueue
  refine ⟨fun hclean hnot hlt => ?_, fun hclean hnot hle => ?_, fun hclean hkeep ht => ?_, fun hd hp => ?_,
    fun hd hp => ?_⟩
  · rw [queued hclean hnot, hqueue, if_pos hlt]
  · rw [queued hclean hnot, hqueue, if_neg (Nat.not_lt.mpr hle)]
  · have hut := hthrottled ht
    have hsame : u.sup k = s.sup k := by rw [hut]; exact hsup
    rw [placed hclean, placeClean_of_throttled (by rw [hrec]; exact hkeep) (by rw [hsame]; exact ht), decimate_eq hrec,
      hqueue, hsame]
  · rw [hcomplete, placeRecord_of_hold (by rw [hrec]; exact hd) (hpolicy.trans hp), ← hrec]
    rfl
  · rw [hcomplete, placeRecord_of_discard (by rw [hrec]; exact hd) (hpolicy.trans hp)]
    rfl

end Sys2Proof.Machine
end

section
/-! PROOFS. The page writer: the end of a line write, and a page request (sections 1.5, 3.1, 3.3). -/

namespace Sys2Proof.Machine

variable {s t : State} {k : Port} {n : Nat} {l : StagedLine} {rest : List StagedLine}

/-! ### What a page writer changes -/

/-- A write of frame bytes changes memory, block health and the count of draws alone. -/
theorem writeBytes_shape (a : Nat) (bytes : List Byte) (s : State) :
    ∃ mem health draws, writeBytes a bytes s =
      { s with draws := draws, store := { s.store with mem := mem, health := health } } := by
  have fold : ∀ (blocks : List Nat) (s : State), ∃ mem health draws,
      blocks.foldl (fun s b => recoverBlock b s) s =
        { s with draws := draws, store := { s.store with mem := mem, health := health } } := by
    intro blocks
    induction blocks with
    | nil => exact fun s => ⟨_, _, _, rfl⟩
    | cons b blocks ih =>
      intro s
      have one : ∃ mem health draws, recoverBlock b s =
          { s with draws := draws, store := { s.store with mem := mem, health := health } } := by
        unfold recoverBlock
        split
        · exact ⟨_, _, _, rfl⟩
        · exact ⟨_, _, _, rfl⟩
      obtain ⟨mem, health, draws, hone⟩ := one
      obtain ⟨mem', health', draws', hrest⟩ := ih (recoverBlock b s)
      exact ⟨mem', health', draws', by rw [List.foldl_cons, hrest, hone]⟩
  obtain ⟨mem, health, draws, h⟩ := fold (blocksOf a bytes.length) s
  refine ⟨writeMem mem a bytes, health, draws, ?_⟩
  unfold writeBytes
  rw [h]

/-- A page writer's bytes change memory, block health, draws, the line's record, the bytes written and the load alone. -/
theorem placeBytes_shape (hl : (s.cam k).staging = l :: rest) (count : Nat) :
    ∃ mem health draws, ∃ d : Nat, placeBytes k count s =
      ((({ s with draws := draws, store := { s.store with mem := mem, health := health } }.modRecord l.owner
        fun r => { r with byteLength := r.byteLength + d }).modCam k
          fun c => { c with written := c.written + d }).modSup k
            fun u => { u with loadBytes := u.loadBytes + d }) := by
  obtain ⟨mem, health, draws, h⟩ := writeBytes_shape
    (frameAddress (s.record l.owner).chain (s.record l.owner).byteLength)
    ((l.payload.drop (s.cam k).written).take count) s
  refine ⟨mem, health, draws, ((l.payload.drop (s.cam k).written).take count).length, ?_⟩
  unfold placeBytes
  rw [hl]
  dsimp only
  rw [h]

theorem cam_placeBytes (hl : (s.cam k).staging = l :: rest) (count : Nat) :
    (placeBytes k count s).cam k = { s.cam k with written := ((placeBytes k count s).cam k).written } := by
  obtain ⟨mem, health, draws, d, h⟩ := placeBytes_shape hl count
  rw [h, State.cam_modSup, State.cam_modCam]
  rfl

theorem modCam_modSup_comm (s : State) (j k : Port) (f : CameraPort → CameraPort) (g : Supervisor → Supervisor) :
    (s.modSup k g).modCam j f = (s.modCam j f).modSup k g := rfl

/-! ### The end of a line write (R12) -/

theorem writeState_of_cons (h : (s.cam k).staging = l :: rest) :
    writeState k s = some (l.payload.length - (s.cam k).written, (s.record l.owner).pageRoom) := by
  simp only [writeState, h]

/-- The bytes of a line not yet written, all of them. -/
theorem take_left (l : StagedLine) (w : Nat) :
    (l.payload.drop w).take (l.payload.length - w) = l.payload.drop w :=
  List.take_of_length_le (by rw [List.length_drop])

/-- The rest of the oldest staged line written, and the line gone from staging, is what the statements write out. -/
theorem lineWritten_eq (hl : (s.cam k).staging = l :: rest) (hs : ∀ b, s.blockHealth b = .sound) :
    ((placeBytes k (l.payload.length - (s.cam k).written) s).modCam k fun c => { c with staging := rest, written := 0 }) =
      lineWritten k l rest s := by
  rw [placeBytes_sound hl hs]
  dsimp only
  rw [take_left, modCam_modSup_comm, State.modCam_modCam]
  rfl

/-- A line write ends: the line is written, and its record completes if it waited for this line alone. -/
theorem exec_lineWriteEnd_of_fits (hl : (s.cam k).staging = l :: rest)
    (hfit : l.payload.length - (s.cam k).written ≤
      (s.record l.owner).chain.length * 65536 - (s.record l.owner).byteLength)
    (hs : ∀ b, s.blockHealth b = .sound) :
    exec (.lineWriteEnd k) s = .next
      (if l.owner ∈ (s.cam k).completion ∧ ∀ m ∈ rest, m.owner ≠ l.owner then
        complete k l.owner ((lineWritten k l rest s).modCam k fun p =>
          { p with completion := p.completion.erase l.owner })
      else lineWritten k l rest s) := by
  have hend : exec (.lineWriteEnd k) s =
      .next (finishLine k (placeBytes k (l.payload.length - (s.cam k).written) s)) := by
    change Host.Outcome.next (match writeState k s with
      | none => s
      | some (left, room) => if left ≤ room then finishLine k (placeBytes k left s) else s) = _
    rw [writeState_of_cons hl]
    exact congrArg _ (if_pos hfit)
  have hcam := cam_placeBytes hl (l.payload.length - (s.cam k).written)
  have hstaging := congrArg CameraPort.staging hcam
  have hcompletion := congrArg CameraPort.completion hcam
  have hwritten : (lineWritten k l rest s).cam k = _ := congrArg (fun u : State => u.cam k) (lineWritten_eq hl hs).symm
  dsimp only at hstaging hcompletion
  rw [State.cam_modCam] at hwritten
  rw [hend]
  unfold finishLine
  rw [hstaging, hl]
  dsimp only
  rw [lineWritten_eq hl hs, hwritten, hcompletion]
  refine congrArg _ (if_congr ?_ rfl rfl)
  simp [CameraPort.hasStaged]

/-- Settles O12: memory after the end of a line write is memory with the line's bytes written into it. -/
theorem lineWriteEndStoresLine : Obligations.LineWriteEndStoresLine := by
  refine ⟨fun s k l rest r hl hr hfit hs => ?_, fun s k l rest r bytes a hl hr hb hfit hs hwf ha => ?_⟩
  · subst hr
    rw [exec_lineWriteEnd_of_fits hl hfit hs]
    exact ⟨fun hopen => congrArg _ (if_neg hopen), fun hclosed => congrArg _ (if_pos hclosed)⟩
  · subst hr
    have hend := exec_lineWriteEnd_of_fits hl (by rw [← List.length_drop, ← hb]; exact hfit) hs
    refine ⟨_, hend, ?_⟩
    have hmem : (lineWritten k l rest s).store.mem = writeMem s.store.mem a bytes := by rw [ha, hb]; rfl
    unfold readByte
    split
    · rw [(completionFrame_complete k l.owner _).mem, State.modCam_store, hmem]
      exact ⟨fun i hi => get_writeMem_inside hwf a bytes hi, fun x hx => get_writeMem_outside hwf a bytes hx⟩
    · rw [hmem]
      exact ⟨fun i hi => get_writeMem_inside hwf a bytes hi, fun x hx => get_writeMem_outside hwf a bytes hx⟩

end Sys2Proof.Machine
end

section
/-! PROOFS. A page request served or refused (sections 1.5, 3.1, 3.3). -/

namespace Sys2Proof.Machine

variable {s p u : State} {k : Port} {n q : Nat} {l : StagedLine} {rest : List StagedLine}

theorem exec_pageRequest_of_lt (hl : (s.cam k).staging = l :: rest) {room : Nat}
    (hroom : room = (s.record l.owner).chain.length * 65536 - (s.record l.owner).byteLength)
    (hlt : room < l.payload.length - (s.cam k).written) :
    exec (.pageRequest k) s = .next (askPage k l.owner (placeBytes k room s)) := by
  have hpage : (s.record l.owner).pageRoom = room := hroom.symm
  change Host.Outcome.next (match (s.cam k).staging, writeState k s with
    | l :: _, some (left, room) => if left ≤ room then s else askPage k l.owner (placeBytes k room s)
    | _, _ => s) = _
  rw [writeState_of_cons hl, hl, hpage]
  exact congrArg _ (if_neg (Nat.not_le.mpr hlt))

theorem askPage_of_pageFor (h : pageFor p q u) :
    askPage k n p = placeBytes k 1 (u.modRecord n fun r => { r with chain := r.chain ++ [q] }) := by
  simp only [askPage, takePage_of_pageFor h]

theorem askPage_of_pageRefused (h : pageRefused p u) : askPage k n p = cutShort k n u := by
  simp only [askPage, takePage_of_pageRefused h]

/-! ### The chain (R44) -/

/-- A placed record is free, or has its chain and its byte length as they were. -/
def sameExtent (n : Nat) (s t : State) : Prop :=
  (t.record n).state = .free ∨
    (t.record n).chain = (s.record n).chain ∧ (t.record n).byteLength = (s.record n).byteLength

theorem sameExtent_modRecord (h : Table.wf FrameRecord.blank s.store.catalogue) {f : FrameRecord → FrameRecord}
    (hc : ∀ r, (f r).chain = r.chain) (hb : ∀ r, (f r).byteLength = r.byteLength) :
    sameExtent n s (s.modRecord n f) := by
  have hrec : (s.modRecord n f).record n = f (s.record n) := State.record_setRecord h n _
  right
  rw [hrec]
  exact ⟨hc _, hb _⟩

theorem sameExtent_holdRecord (h : Table.wf FrameRecord.blank s.store.catalogue) : sameExtent n s (holdRecord n s) :=
  sameExtent_modRecord h (fun _ => rfl) fun _ => rfl

theorem sameExtent_queueOrHold (h : Table.wf FrameRecord.blank s.store.catalogue) :
    sameExtent n s (queueOrHold k n s) := by
  unfold queueOrHold
  split
  · exact sameExtent_modRecord (s := s.setLive k _) h (fun _ => rfl) fun _ => rfl
  · exact sameExtent_holdRecord h

theorem sameExtent_placeClean (h : Table.wf FrameRecord.blank s.store.catalogue) :
    sameExtent n s (placeClean k n s) := by
  unfold placeClean
  split
  · unfold decimate
    dsimp only
    split
    · exact sameExtent_queueOrHold h
    · exact sameExtent_holdRecord h
  · exact sameExtent_queueOrHold h

theorem sameExtent_placeRecord (h : Table.wf FrameRecord.blank s.store.catalogue) :
    sameExtent n s (placeRecord k n s) := by
  unfold placeRecord
  split
  · split
    · exact sameExtent_placeClean h
    · exact sameExtent_holdRecord h
    · have hfreed : (discardRecord k n s).record n = (s.record n).freed :=
        State.record_setRecord (s := s.setLookup _ _ none) h n _
      left
      rw [hfreed]
      rfl
  · exact sameExtent_placeClean h

/-- A completion frees its record, or leaves it its chain and its byte length. -/
theorem sameExtent_complete (h : Table.wf FrameRecord.blank s.store.catalogue) : sameExtent n s (complete k n s) := by
  unfold complete
  dsimp only
  generalize hv : State.modCam _ k _ = v
  have hcat : v.store.catalogue = s.store.catalogue := by rw [← hv]; split <;> rfl
  obtain ⟨hstore, -, -⟩ := warmupCompletion_frame k v
  have hrec : (warmupCompletion k v).record n = s.record n := by unfold State.record; rw [hstore, hcat]
  have := sameExtent_placeRecord (k := k) (n := n) (s := warmupCompletion k v) (by rw [hstore, hcat]; exact h)
  unfold sameExtent at this ⊢
  rwa [hrec] at this

/-! ### The last page filled (R12) -/

/-- What placing these bytes in record `n` leaves, no block being in error. -/
structure BytesPlaced (n : Nat) (k : Port) (bytes : List Byte) (s t : State) : Prop where
  mem : t.store.mem = writeMem s.store.mem (frameAddress (s.record n).chain (s.record n).byteLength) bytes
  health : t.store.health = s.store.health
  record : t.record n = { s.record n with byteLength := (s.record n).byteLength + bytes.length }
  wf : Table.wf FrameRecord.blank t.store.catalogue
  cam : t.cam k = { s.cam k with written := (s.cam k).written + bytes.length }

theorem bytesPlaced_placeBytes (hl : (s.cam k).staging = l :: rest) (hs : ∀ b, s.blockHealth b = .sound)
    (hwf : Table.wf FrameRecord.blank s.store.catalogue) (count : Nat) :
    BytesPlaced l.owner k ((l.payload.drop (s.cam k).written).take count) s (placeBytes k count s) := by
  rw [placeBytes_sound hl hs]
  refine ⟨rfl, rfl, State.record_setRecord (s := { s with store := { s.store with mem := _ } }) hwf _ _,
    Table.wf_set hwf _ _, ?_⟩
  dsimp only
  rw [State.cam_modSup, State.cam_modCam]
  rfl

/-- In the page being filled, every address but the page's first lies off the page borders. -/
theorem frameAddress_add_ne (chain : List Nat) {b i : Nat} (hi : i < chain.length * 65536 - b)
    (hlen : chain.length = (b + 65535) / 65536) (q : Nat) : frameAddress chain b + i ≠ 65536 * q := by
  unfold frameAddress
  rw [show Config.pageBytes = 65536 from rfl]
  omega

/-- The first address of a page that has just joined a full chain. -/
theorem frameAddress_append (chain : List Nat) (q : Nat) :
    frameAddress (chain ++ [q]) (chain.length * 65536) = 65536 * q := by
  unfold frameAddress
  rw [show Config.pageBytes = 65536 from rfl, Nat.mul_div_cancel _ (by decide), Nat.mul_mod_left]
  simp [Nat.mul_comm]

section

variable {room : Nat} (hl : (s.cam k).staging = l :: rest) (hs : ∀ b, s.blockHealth b = .sound) (ht : s.tablesOk)
  (hfill : (s.record l.owner).state = .filling)
  (hlt : room < l.payload.length - (s.cam k).written)

/-- The bytes that fill the last page. -/
theorem length_filling (w : Nat) (hlt : room < l.payload.length - w) : ((l.payload.drop w).take room).length = room := by
  rw [List.length_take, List.length_drop]
  omega

include hl hs ht hfill

/-- What the evictions for a page leave of the state with the last page filled. -/
theorem pageFrame_placeBytes (count : Nat) :
    PageFrame l.owner (placeBytes k count s) (takePage (placeBytes k count s)).2 := by
  obtain ⟨-, hcat, -⟩ := ht
  have h := bytesPlaced_placeBytes hl hs hcat count
  exact pageFrame_takePage h.wf (by rw [h.record]; exact hfill)

variable (hroom : room = (s.record l.owner).chain.length * 65536 - (s.record l.owner).byteLength)
  (hlen : (s.record l.owner).chain.length = ((s.record l.owner).byteLength + 65535) / 65536)

include hlt hroom hlen

/-- A page handed out, and the line's next byte placed in it (R43, R44; log entry 27). -/
theorem newPage_placed (hp : takePage (placeBytes k room s) = (some q, u)) :
    ∃ b v, l.payload[(s.cam k).written + room]? = some b ∧
      v = placeBytes k 1 (u.modRecord l.owner fun r => { r with chain := r.chain ++ [q] }) ∧
      v.store.mem = writeMem (writeMem s.store.mem (frameAddress (s.record l.owner).chain (s.record l.owner).byteLength)
        ((l.payload.drop (s.cam k).written).take room)) (65536 * q) [b] ∧
      (v.record l.owner).chain = (s.record l.owner).chain ++ [q] ∧
      (v.record l.owner).byteLength = (s.record l.owner).byteLength + room + 1 := by
  have hframe : PageFrame l.owner (placeBytes k room s) u := by
    have := pageFrame_placeBytes hl hs ht hfill room
    rwa [hp] at this
  have hfilled := bytesPlaced_placeBytes hl hs ht.2.1 room
  have hbytes := length_filling (l := l) (s.cam k).written hlt
  let w := u.modRecord l.owner fun r => { r with chain := r.chain ++ [q] }
  have hcam : w.cam k = { s.cam k with written := (s.cam k).written + room } := by
    have hu : u.cam k = (placeBytes k room s).cam k := by unfold State.cam; rw [hframe.cams]
    rw [show w.cam k = u.cam k from rfl, hu, hfilled.cam, hbytes]
  have hsound : ∀ b, w.blockHealth b = .sound := fun b => by
    have := hs b
    unfold State.blockHealth at this ⊢
    rwa [show w.store.health = s.store.health from hframe.health.trans hfilled.health]
  have hwf : Table.wf FrameRecord.blank w.store.catalogue := Table.wf_set hframe.wf _ _
  have hrecord : w.record l.owner = { s.record l.owner with
      byteLength := (s.record l.owner).byteLength + room, chain := (s.record l.owner).chain ++ [q] } := by
    rw [show w.record l.owner = _ from State.record_setRecord hframe.wf _ _, hframe.record, hfilled.record, hbytes]
  have hplaced := bytesPlaced_placeBytes (k := k) (l := l) (rest := rest) (by rw [hcam]; exact hl) hsound hwf 1
  have hin : (s.cam k).written + room < l.payload.length := by omega
  have hone : (l.payload.drop (w.cam k).written).take 1 = [l.payload[(s.cam k).written + room]] := by
    rw [hcam]
    exact List.take_one_drop_eq_of_lt_length hin
  have haddress : frameAddress (w.record l.owner).chain (w.record l.owner).byteLength = 65536 * q := by
    have hfull : (s.record l.owner).byteLength + room = (s.record l.owner).chain.length * 65536 := by omega
    rw [hrecord, ← frameAddress_append (s.record l.owner).chain q]
    exact congrArg _ hfull
  have hmem : w.store.mem = writeMem s.store.mem _ _ := hframe.mem.trans hfilled.mem
  rw [hone] at hplaced
  refine ⟨_, _, List.getElem?_eq_getElem hin, rfl, ?_, ?_, ?_⟩
  · rw [hplaced.mem, haddress, hmem]
  · rw [hplaced.record, hrecord]
  · rw [hplaced.record, hrecord]
    rfl

end

/-! ### A record cut short by the full store (R13) -/

theorem cutShort_eq (k : Port) (n : Nat) (u : State) :
    cutShort k n u =
      complete k n ((u.modRecord n fun r => { r with flags := r.flags ||| 0x40 }).modCam k fun c =>
        { c with
          staging := c.staging.filter fun m => m.owner ≠ n
          written := 0
          receive := if c.current = some n then .skipping else c.receive
          current := if c.current = some n then none else c.current
          completion := c.completion.erase n }) := rfl

theorem mem_cutShort (k : Port) (n : Nat) (u : State) : (cutShort k n u).store.mem = u.store.mem :=
  (completionFrame_complete k n _).mem

theorem sameExtent_cutShort (h : Table.wf FrameRecord.blank u.store.catalogue) : sameExtent n u (cutShort k n u) := by
  rw [cutShort_eq]
  generalize hv : State.modCam _ k _ = v
  have hrecord : v.record n = { u.record n with flags := (u.record n).flags ||| 0x40 } := by
    rw [← hv]
    exact State.record_setRecord h n _
  have hcat : Table.wf FrameRecord.blank v.store.catalogue := by
    rw [← hv]
    exact Table.wf_set h _ _
  have := sameExtent_complete (k := k) (n := n) hcat
  unfold sameExtent at this ⊢
  rwa [hrecord] at this

/-- Settles O13: the two answers to a page request, and for sound blocks the bytes in memory and the pages of the chain. -/
theorem pageRequestServedOrCutShort : Obligations.PageRequestServedOrCutShort := by
  intro s p k l rest n room r bytes a hl hn hr hroom hlt hp
  subst hn hr hp
  have run := exec_pageRequest_of_lt hl hroom hlt
  refine ⟨fun q u h => run.trans (congrArg _ (askPage_of_pageFor h)), fun u h => ?_,
    fun hs ht hfill hlen ha hbytes => ?_⟩
  · exact run.trans (congrArg _ ((askPage_of_pageRefused h).trans (cutShort_eq ..)))
  have hfilled := bytesPlaced_placeBytes hl hs ht.2.1 room
  have hframe := pageFrame_placeBytes hl hs ht hfill room
  have hlength : bytes.length = room := by rw [hbytes]; exact length_filling _ hlt
  have hmem : (placeBytes k room s).store.mem = writeMem s.store.mem a bytes := by rw [hfilled.mem, ha, hbytes]
  refine ⟨fun q u h => ?_, fun u h => ?_, ?_⟩
  · obtain ⟨b, v, hb, hv, hvmem, -⟩ := newPage_placed hl hs ht hfill hlt hroom hlen (takePage_of_pageFor h)
    rw [← ha, ← hbytes] at hvmem
    have hwf : Memory.wf (writeMem s.store.mem a bytes) := writeMem_wf ht.1 a bytes
    refine ⟨_, run.trans (congrArg _ (askPage_of_pageFor h)), ?_⟩
    unfold readByte
    rw [← hv, hvmem]
    refine ⟨fun i hi => ?_, ?_, fun x hx hne => ?_⟩
    · have hoff : a + i ≠ 65536 * q := by
        rw [ha]; exact frameAddress_add_ne _ (by rw [← hroom, ← hlength]; exact hi) hlen q
      rw [get_writeMem_outside hwf _ _ (by rw [List.length_singleton]; omega)]
      exact get_writeMem_inside ht.1 a bytes hi
    · have hread := get_writeMem_inside hwf (65536 * q) [b] (i := 0) Nat.zero_lt_one
      rw [hb]
      exact congrArg some hread
    · rw [get_writeMem_outside hwf _ _ (by rw [List.length_singleton]; omega)]
      exact get_writeMem_outside ht.1 a bytes hx
  · rw [takePage_of_pageRefused h] at hframe
    refine ⟨_, run.trans (congrArg _ (askPage_of_pageRefused h)), ?_⟩
    unfold readByte
    rw [mem_cutShort, hframe.mem, hmem]
    exact ⟨fun i hi => get_writeMem_inside ht.1 a bytes hi, fun x hx => get_writeMem_outside ht.1 a bytes hx⟩
  · refine ⟨_, run, ?_⟩
    unfold askPage
    rcases htake : takePage (placeBytes k room s) with ⟨page, u⟩
    cases page with
    | some q =>
      obtain ⟨b, v, -, hv, -, hchain, hbyte⟩ := newPage_placed hl hs ht hfill hlt hroom hlen htake
      dsimp only
      rw [← hv, hchain, hbyte, List.length_append]
      intro _
      simp only [List.length_singleton]
      omega
    | none =>
      rw [htake] at hframe
      have hrecord : u.record l.owner = _ := hframe.record.trans hfilled.record
      have hext := sameExtent_cutShort (k := k) (n := l.owner) hframe.wf
      unfold sameExtent at hext
      rw [hrecord] at hext
      dsimp only at hext ⊢
      intro hne
      obtain ⟨hchain, hbyte⟩ := hext.resolve_left hne
      rw [hchain, hbyte, ← hbytes, hlength]
      omega

end Sys2Proof.Machine
end

section
/-! PROOFS. The eviction order, evictability, and the freeing of a record (section 3.3). -/

namespace Sys2Proof.Machine

variable {s : State} {n : Nat}

theorem evictable_iff (r : FrameRecord) (evictSent : Bool) :
    r.evictable evictSent = true ↔
      (r.state = .delivered ∨ r.state = .held ∨ (r.state = .sent ∧ evictSent = true)) ∧
        r.keep = false ∧ r.lineHold = false ∧ r.officeHold = false ∧ r.verdictPending = false ∧
        r.recallPending = false := by
  simp only [FrameRecord.evictable, FrameRecord.unmarked, Bool.and_eq_true, Bool.or_eq_true, decide_eq_true_eq,
    Bool.not_eq_true']
  tauto

theorem oldestEvictable_eq_none_iff (st : RecState) :
    oldestEvictable st s = none ↔
      ∀ m ∈ s.store.ageList, (s.record m).evictable s.store.evictSent = true → (s.record m).state ≠ st := by
  simp only [oldestEvictable, List.find?_eq_none, Bool.and_eq_true, decide_eq_true_eq, not_and]
  exact ⟨fun h m hm he hs => h m hm hs he, fun h m hm hs he => h m hm he hs⟩

theorem oldestEvictable_eq_some {st : RecState} (h : oldestEvictable st s = some n) :
    (s.record n).state = st ∧ (s.record n).evictable s.store.evictSent = true ∧
      ∃ older newer, s.store.ageList = older ++ n :: newer ∧
        ∀ m ∈ older, (s.record m).evictable s.store.evictSent = true → (s.record m).state ≠ (s.record n).state := by
  obtain ⟨hn, older, newer, hlist, hold⟩ := List.find?_eq_some_iff_append.mp h
  simp only [Bool.and_eq_true, decide_eq_true_eq] at hn
  refine ⟨hn.1, hn.2, older, newer, hlist, fun m hm he hs => ?_⟩
  have := hold m hm
  simp [hs, hn.1, he] at this

/-- A record's place in the eviction order (R52). -/
def evictionRank (s : State) (n : Nat) : Nat :=
  if (s.record n).state = .delivered then 0 else if (s.record n).state = .held then 1 else 2

/-- The victim is the oldest of the first kind that has one. -/
theorem victim_eq_some (h : victim s = some n) :
    (oldestEvictable .delivered s = some n) ∨
      (oldestEvictable .delivered s = none ∧ oldestEvictable .held s = some n) ∨
      (oldestEvictable .delivered s = none ∧ oldestEvictable .held s = none ∧ oldestEvictable .sent s = some n) := by
  unfold victim at h
  cases hd : oldestEvictable .delivered s with
  | some a => left; simpa [hd] using h
  | none =>
    cases hh : oldestEvictable .held s with
    | some b => right; left; exact ⟨rfl, by simpa [hd, hh] using h⟩
    | none => right; right; exact ⟨rfl, rfl, by simpa [hd, hh] using h⟩

theorem victim_rank_le (h : victim s = some n) {m : Nat} (hm : m ∈ s.store.ageList)
    (he : (s.record m).evictable s.store.evictSent = true) : evictionRank s n ≤ evictionRank s m := by
  unfold evictionRank
  rcases victim_eq_some h with hn | ⟨hd, hn⟩ | ⟨hd, hh, hn⟩
  · obtain ⟨hs, -⟩ := oldestEvictable_eq_some hn
    rw [if_pos hs]
    exact Nat.zero_le _
  · obtain ⟨hs, -⟩ := oldestEvictable_eq_some hn
    have hmd := (oldestEvictable_eq_none_iff _).mp hd m hm he
    rw [hs, if_neg (by decide), if_pos rfl, if_neg hmd]
    split <;> decide
  · obtain ⟨hs, -⟩ := oldestEvictable_eq_some hn
    have hmd := (oldestEvictable_eq_none_iff _).mp hd m hm he
    have hmh := (oldestEvictable_eq_none_iff _).mp hh m hm he
    rw [if_neg hmd, if_neg hmh]
    split
    · exact Nat.zero_le _
    · split <;> decide

theorem victim_eq_none_iff :
    victim s = none ↔ ∀ m ∈ s.store.ageList, ¬(s.record m).evictable s.store.evictSent = true := by
  refine ⟨fun h m hm he => ?_, fun h => victim_eq_none fun m hm => Bool.eq_false_iff.mpr (h m hm)⟩
  unfold victim at h
  simp only [Option.or_eq_none_iff, oldestEvictable_eq_none_iff] at h
  obtain ⟨hd, hh, hs⟩ := h
  obtain ⟨hstate, -⟩ := (evictable_iff _ _).mp he
  rcases hstate with hst | hst | ⟨hst, -⟩
  · exact hd m hm he hst
  · exact hh m hm he hst
  · exact hs m hm he hst

/-- Settles O14: the order of eviction by kind and age, and the freed record's pages, number, entry and marks. -/
theorem evictionOrderAndFreeing : Obligations.EvictionOrderAndFreeing := by
  refine ⟨fun s => ⟨victim_eq_none_iff, fun n h => ?_, fun n => evictable_iff _ _⟩, fun s n r ht hr => ?_⟩
  · have hold : ∃ st, oldestEvictable st s = some n := by
      rcases victim_eq_some h with hn | ⟨-, hn⟩ | ⟨-, -, hn⟩ <;> exact ⟨_, hn⟩
    obtain ⟨st, hst⟩ := hold
    obtain ⟨-, hok, older, newer, hlist, holder⟩ := oldestEvictable_eq_some hst
    exact ⟨older, newer, hlist, hok, fun m hm he => victim_rank_le h hm he, holder⟩
  · obtain ⟨-, hcat, hlookup, -⟩ := ht
    subst hr
    exact ⟨rfl, rfl, rfl, Table.get_set_same hlookup _ _, fun k m hne => Table.get_set_other hlookup hne _,
      State.record_setRecord (s := s.setLookup _ _ none) hcat _ _,
      fun m hm => State.record_setRecord_other (s := s.setLookup _ _ none) hcat hm _, rfl, rfl⟩

end Sys2Proof.Machine
end

section
/-! PROOFS. A microsecond passes: timers, and what page writers may change (log entries 2 and 6). -/

namespace Sys2Proof.Machine

/-- What page writers leave as it stands while time passes (R12; log entry 6). -/
structure WriterFrame (s t : State) : Prop where
  dark : t.dark = s.dark
  shots : t.shots = s.shots
  uplink : t.uplink = s.uplink
  recalls : t.recalls = s.recalls
  link : t.link = s.link
  reqs : t.reqs = s.reqs
  events : t.events = s.events
  ctrg : t.ctrg = s.ctrg
  pending : t.pending = s.pending
  sup : ∀ k, t.sup k = { s.sup k with loadBytes := (t.sup k).loadBytes }
  cam : ∀ k, t.cam k = { s.cam k with written := (t.cam k).written }
  freePages : t.store.freePages = s.store.freePages
  freeRecords : t.store.freeRecords = s.store.freeRecords
  ageList : t.store.ageList = s.store.ageList
  lookup : t.store.lookup = s.store.lookup
  phase : t.store.phase = s.store.phase

theorem WriterFrame.refl (s : State) : WriterFrame s s :=
  ⟨rfl, rfl, rfl, rfl, rfl, rfl, rfl, rfl, rfl, fun _ => rfl, fun _ => rfl, rfl, rfl, rfl, rfl, rfl⟩

theorem WriterFrame.trans {s t u : State} (h : WriterFrame s t) (g : WriterFrame t u) : WriterFrame s u where
  dark := g.dark.trans h.dark
  shots := g.shots.trans h.shots
  uplink := g.uplink.trans h.uplink
  recalls := g.recalls.trans h.recalls
  link := g.link.trans h.link
  reqs := g.reqs.trans h.reqs
  events := g.events.trans h.events
  ctrg := g.ctrg.trans h.ctrg
  pending := g.pending.trans h.pending
  sup k := by rw [g.sup, h.sup]
  cam k := by rw [g.cam, h.cam]
  freePages := g.freePages.trans h.freePages
  freeRecords := g.freeRecords.trans h.freeRecords
  ageList := g.ageList.trans h.ageList
  lookup := g.lookup.trans h.lookup
  phase := g.phase.trans h.phase

theorem writerFrame_placeBytes (k : Port) (count : Nat) (s : State) : WriterFrame s (placeBytes k count s) := by
  cases hl : (s.cam k).staging with
  | nil =>
    unfold placeBytes
    rw [hl]
    exact .refl s
  | cons l rest =>
    obtain ⟨mem, health, draws, d, h⟩ := placeBytes_shape hl count
    rw [h]
    refine ⟨rfl, rfl, rfl, rfl, rfl, rfl, rfl, rfl, rfl, fun j => ?_, fun j => ?_, rfl, rfl, rfl, rfl, rfl⟩
    · by_cases hj : j = k
      · subst hj; rw [State.sup_modSup]; rfl
      · rw [State.sup_modSup_ne _ _ hj]; rfl
    · rw [State.cam_modSup]
      by_cases hj : j = k
      · subst hj; rw [State.cam_modCam]; rfl
      · rw [State.cam_modCam_ne _ _ hj]; rfl

theorem writerFrame_writerProgress (k : Port) (s : State) : WriterFrame s (writerProgress k s) := by
  unfold writerProgress
  split
  · exact .refl s
  · exact (writerFrame_placeBytes ..).trans
      ⟨rfl, rfl, rfl, rfl, rfl, rfl, rfl, rfl, rfl, fun _ => rfl, fun _ => rfl, rfl, rfl, rfl, rfl, rfl⟩

theorem writerFrame_tick (s : State) : WriterFrame (tickTimers s) (tick s) :=
  eachPort_induction writerProgress (WriterFrame (tickTimers s))
    (fun k _ h => h.trans (writerFrame_writerProgress k _)) _ (.refl _)

theorem slot_tickTimers (s : State) (k : Port) :
    (tickTimers s).slot k = (s.slot k).map fun e => { e with remaining := e.remaining - 1 } := by
  simp [tickTimers, ShotTable.tick, State.slot]

/-- Settles O2: the timers of `tickTimers`, and the frame of the page writers. -/
theorem idleStepPassesTime : Obligations.IdleStepPassesTime := by
  intro s hp
  have hstep : step s = .next (tick s) := by
    unfold step
    rw [hp]
  have h := writerFrame_tick s
  refine ⟨_, hstep, h.pending.trans hp, h.events, h.uplink, h.recalls, h.ctrg, h.link, h.dark, fun l => ?_, ?_, ?_, ?_,
    ?_, fun k => ?_, fun k => ?_, h.cam, h.freePages, h.freeRecords, h.ageList, h.lookup, h.phase⟩
  · rw [← lock_tickTimers]
    unfold State.lock
    rw [h.reqs]
  · rw [h.reqs]; rfl
  · rw [h.reqs]; rfl
  · rw [h.shots]; rfl
  · rw [h.shots]; rfl
  · rw [← slot_tickTimers]
    unfold State.slot
    rw [h.shots]
  · rw [h.sup, sup_tickTimers]
    generalize ((tick s).sup k).loadBytes = load
    rfl

end Sys2Proof.Machine
end

section
/-! PROOFS. The shot table's expiries and requests: TRIGGER_SLOT_EXPIRY, TAG, QUERY_SHOT, VERDICT, the deadline and the
line watchdog (chapter 2). -/

namespace Sys2Proof.Machine

/-! ### Trigger slots (R28) -/

/-- The expiry of a PENDING slot, its fields written out. -/
theorem expireSlot_of_pending {s : State} {k : Port} {e : TriggerSlot} (he : s.slot k = some e) :
    expireSlot k s = { s with
      ctrg := s.ctrg.set k (s.ctrg[k] + 1)
      shots := { s.shots with
        slots := s.shots.slots.set k none
        shots := s.shots.shots.map fun h =>
          if h.number = e.shot then { h with fired := h.fired ||| portBit k } else h } } := by
  unfold expireSlot
  rw [he]
  rfl

theorem exec_triggerSlotExpiry (k : Port) (s : State) : exec (.triggerSlotExpiry k) s =
    .next (if ranOut ((s.slot k).map TriggerSlot.remaining) then expireSlot k s else s) := rfl

/-- Settles O16: the command acts on a slot whose delay has run out, and only then. -/
theorem slotExpiryPulsesPort : Obligations.SlotExpiryPulsesPort := by
  intro s k
  rw [exec_triggerSlotExpiry]
  refine ⟨fun e he h0 => ?_, fun h => congrArg Host.Outcome.next (if_neg ?_)⟩
  · have hran : ranOut ((s.slot k).map TriggerSlot.remaining) = true := by simp [he, h0, ranOut]
    rw [if_pos hran, expireSlot_of_pending he]
  · rcases h with h | ⟨e, he, h0⟩
    · simp [h, ranOut]
    · simp [he, h0, ranOut]

/-! ### Finding open shots -/

theorem takable_line (s : State) : takable .line s := trivial

theorem openShot_eq_none {s : State} {n : Half} (h : ∀ g ∈ s.shots.shots, g.number ≠ n) : openShot n s = none := by
  simpa [openShot] using h

@[simp] theorem openShot_heard (m : Master) (n : Half) (s : State) : openShot n (heard m s) = openShot n s := by
  simp [openShot]

/-! ### TAG and QUERY_SHOT (R31, R32) -/

/-- The records of a list take a tag. -/
def tagRecords (v : Word) (refs : List (Port × Nat)) (s : State) : State :=
  refs.foldl (fun s p => s.modRecord p.2 fun r => { r with tag := some v }) s

theorem tagRecords_eq (v : Word) (refs : List (Port × Nat)) (s : State) :
    tagRecords v refs s = { s with store := { s.store with catalogue := (tagRecords v refs s).store.catalogue } } := by
  induction refs generalizing s with
  | nil => rfl
  | cons p refs ih => exact (ih _).trans rfl

theorem record_tagRecords (v : Word) (refs : List (Port × Nat)) {s : State}
    (hwf : Table.wf FrameRecord.blank s.store.catalogue) (i : Nat) :
    (tagRecords v refs s).record i =
      if i ∈ refs.map Prod.snd then { s.record i with tag := some v } else s.record i := by
  induction refs generalizing s with
  | nil => simp [tagRecords]
  | cons p refs ih =>
    refine (ih (s := s.modRecord p.2 fun r => { r with tag := some v }) (Table.wf_set hwf _ _)).trans ?_
    rw [State.modRecord_eq]
    by_cases hi : i = p.2
    · subst hi
      simp [State.record_setRecord hwf]
    · simp [State.record_setRecord_other hwf hi, hi]

theorem handleTag_of_open {s : State} {n : Half} {h : Shot} (hs : openShot n s = some h) (v : Word) :
    handleTag .line n v s =
      (tagRecords v h.refs (modShot n (fun g => { g with tag := some v }) s), doneWith []) := by
  simp only [handleTag, hs]
  rfl

theorem handleTag_of_none {s : State} {n : Half} (hs : openShot n s = none) (v : Word) :
    handleTag .line n v s = (s, refuse .notFound) := by simp only [handleTag, hs]

theorem handleQueryShot_of_open {s : State} {n : Half} {h : Shot} (hs : openShot n s = some h) :
    handleQueryShot n s = (s, doneWith (shotSummary s h)) := by simp only [handleQueryShot, hs]

theorem handleQueryShot_of_none {s : State} {n : Half} (hs : openShot n s = none) :
    handleQueryShot n s = (s, refuse .notFound) := by simp only [handleQueryShot, hs]

theorem byteOf_bitCode (b : Bool) : byteOf (bitCode b) = if b then 1 else 0 := by cases b <;> rfl

theorem orZero_eq_getD {n : Nat} (o : Option (BitVec n)) : orZero o = o.getD 0 := by cases o <;> rfl

theorem Origin.byteOf_code (o : Origin) :
    byteOf o.code = match o with | .request => 0 | .pin i => byteOf (i.val + 1) := by cases o <;> rfl

/-- The summary in the layout of R174, the choices it holds written as bytes. -/
theorem shotSummary_eq (s : State) (h : Shot) :
    shotSummary s h = be16 h.number ++ [if h.tag.isSome then 1 else 0] ++ be32 (h.tag.getD 0) ++
      [match h.origin with | .request => 0 | .pin i => byteOf (i.val + 1), h.wanted, h.fired, h.missed, h.seen,
        if h.keep then 1 else 0] ++ be16 (halfOf ((h.remaining + 999) / 1000)) ++ [byteOf h.refs.length] ++
      h.refs.flatMap fun p => byteOf p.1.val :: be16 (s.record p.2).frame := by
  simp only [shotSummary, byteOf_bitCode, orZero_eq_getD, Origin.byteOf_code]
  rfl

theorem exec_tag_of_takable {m : Master} {s t : State} {r : Reply} {n : Half} {v : Word} (h : takable m s) (ref : Half)
    (hr : handleTag m n v (heard m s) = (t, r)) :
    exec (.tag m ref n v) s = .next (answered m (answerTo ref 0x07 r) t) :=
  congrArg Host.Outcome.next (arrive_of_handle (req := .tag n v) h ref rfl hr)

theorem exec_queryShot_of_takable {m : Master} {s t : State} {r : Reply} {n : Half} (h : takable m s) (ref : Half)
    (hr : handleQueryShot n (heard m s) = (t, r)) :
    exec (.queryShot m ref n) s = .next (answered m (answerTo ref 0x0A r) t) :=
  congrArg Host.Outcome.next (arrive_of_handle (req := .queryShot n) h ref rfl hr)

/-- Settles O17: the request finds the oldest shot of the number or none, and a found one's records are tagged in turn. -/
theorem tagAndQueryShot : Obligations.TagAndQueryShot := by
  refine ⟨fun s ref n v hwf => ⟨fun h hs => ?_, fun hs => ?_⟩, fun s ref n v htake => ?_,
    fun s m ref n htake => ⟨fun h hs => ?_, fun hs => ?_⟩⟩
  · have hopen : openShot n (heard .line s) = some h := (openShot_heard ..).trans hs
    refine ⟨tagRecords v h.refs (modShot n (fun g => { g with tag := some v }) (heard .line s)),
      exec_tag_of_takable (takable_line s) ref (handleTag_of_open hopen v), fun i => ?_, ?_⟩
    · exact record_tagRecords v h.refs (s := modShot n (fun g => { g with tag := some v }) (heard .line s)) hwf i
    · exact tagRecords_eq ..
  · exact exec_tag_of_takable (takable_line s) ref (handleTag_of_none ((openShot_heard ..).trans (openShot_eq_none hs)) v)
  · exact exec_tag_of_takable htake ref rfl
  · have hopen : openShot n (heard m s) = some h := (openShot_heard ..).trans hs
    rw [exec_queryShot_of_takable htake ref (handleQueryShot_of_open hopen)]
    rw [shotSummary_eq]
    simp only [heard_record]
    rfl
  · exact exec_queryShot_of_takable htake ref
      (handleQueryShot_of_none ((openShot_heard ..).trans (openShot_eq_none hs)))

/-! ### VERDICT (R34) -/

theorem handleVerdict_of_bad {v : Byte} (hv : 3 ≤ v.toNat) (n : Half) (s : State) :
    handleVerdict .line n v s = (s, refuse .badValue) := by
  have : 2 < v.toNat := hv
  simp only [handleVerdict, if_pos this]

theorem handleVerdict_of_open {v : Byte} (hv : v.toNat ≤ 2) {n : Half} {s : State} {h : Shot}
    (hs : openShot n s = some h) :
    handleVerdict .line n v s = (closeShot (.ofCode v.toNat) h s, doneWith []) := by
  have : ¬ 2 < v.toNat := by omega
  simp only [handleVerdict, if_neg this, hs]

theorem handleVerdict_of_none {v : Byte} (hv : v.toNat ≤ 2) {n : Half} {s : State} (hs : openShot n s = none) :
    handleVerdict .line n v s =
      if n ∈ s.shots.window then ((s.raise .verdictLate).countGlobal .verdictsLate 1, late)
      else (s, refuse .notFound) := by
  have : ¬ 2 < v.toNat := by omega
  simp only [handleVerdict, if_neg this, hs, List.contains_iff_mem]

theorem Verdict.ofCode_toNat {v : Byte} (hv : v.toNat ≤ 2) :
    Verdict.ofCode v.toNat = if v = 0 then .pass else if v = 1 then .reject else .review := by
  obtain h | h | h : v = 0 ∨ v = 1 ∨ v = 2 := by bv_omega
  all_goals subst h; rfl

theorem exec_verdict_of_takable {m : Master} {s t : State} {r : Reply} {n : Half} {v : Byte} (h : takable m s)
    (ref : Half) (hr : handleVerdict m n v (heard m s) = (t, r)) :
    exec (.verdict m ref n v) s = .next (answered m (answerTo ref 0x08 r) t) :=
  congrArg Host.Outcome.next (arrive_of_handle (req := .verdict n v) h ref rfl hr)

/-- Settles O18: the tests in their order, each with the reply it leads to. -/
theorem verdictHandledInOrder : Obligations.VerdictHandledInOrder := by
  intro s ref n v
  have hnone : (∀ h ∈ s.shots.shots, h.number ≠ n) → openShot n (heard .line s) = none :=
    fun hs => (openShot_heard ..).trans (openShot_eq_none hs)
  refine ⟨fun hv => ?_, fun h hv hs => ?_, fun hv hs hw => ?_, fun hv hs hw => ?_, fun htake => ?_⟩
  · exact exec_verdict_of_takable (takable_line s) ref (handleVerdict_of_bad hv ..)
  · rw [← Verdict.ofCode_toNat hv]
    exact exec_verdict_of_takable (takable_line s) ref (handleVerdict_of_open hv ((openShot_heard ..).trans hs))
  · exact exec_verdict_of_takable (takable_line s) ref ((handleVerdict_of_none hv (hnone hs)).trans (if_pos hw))
  · exact exec_verdict_of_takable (takable_line s) ref ((handleVerdict_of_none hv (hnone hs)).trans (if_neg hw))
  · exact exec_verdict_of_takable htake ref rfl

/-! ### The deadline and the line watchdog (R33, R39) -/

theorem exec_deadlineExpiry_of_none {s : State} {n : Half} (hs : openShot n s = none) :
    exec (.deadlineExpiry n) s = .next s := by
  change execDeadlineExpiry n s = _
  simp only [execDeadlineExpiry, hs]

theorem exec_deadlineExpiry_of_open {s : State} {n : Half} {h : Shot} (hs : openShot n s = some h) :
    exec (.deadlineExpiry n) s = .next (if h.remaining = 0 then closeShot (automaticVerdict s) h s else s) := by
  change execDeadlineExpiry n s = _
  simp only [execDeadlineExpiry, hs]

theorem automaticVerdict_of_attended {s : State} (h : s.shots.lineState = .attended) :
    automaticVerdict s = s.shots.defaultVerdict := by simp only [automaticVerdict, h]

theorem automaticVerdict_of_silent {s : State} (h : s.shots.lineState = .silent) : automaticVerdict s = .review := by
  simp only [automaticVerdict, h]

/-- Settles O20: the two expiries, each acting only when its timer has run out. -/
theorem deadlineAndWatchdogExpiries : Obligations.DeadlineAndWatchdogExpiries := by
  refine ⟨fun s n => ⟨fun h hs h0 hline => ?_, fun h hs h0 hline => ?_, fun h hs h0 => ?_, fun hs => ?_⟩,
    fun s hw => ?_, fun s hw => ?_⟩
  · rw [exec_deadlineExpiry_of_open hs, if_pos h0, automaticVerdict_of_attended hline]
  · rw [exec_deadlineExpiry_of_open hs, if_pos h0, automaticVerdict_of_silent hline]
  · rw [exec_deadlineExpiry_of_open hs, if_neg h0]
  · exact exec_deadlineExpiry_of_none (openShot_eq_none hs)
  · exact congrArg Host.Outcome.next (if_neg (by simpa [ranOut] using hw))
  · refine ⟨silenceLine s, congrArg Host.Outcome.next (if_pos (by simp [ranOut, hw])), fun l => ?_, rfl⟩
    exact lock_releaseLocks _ _ _

end Sys2Proof.Machine
end

section
/-! PROOFS. The close of a shot: its references one by one (R35, R36). -/

namespace Sys2Proof.Machine

/-- `t` is `s` once a close with verdict `v` has acted on the references `refs`. -/
structure ReferencesClosed (v : Verdict) (refs : List (Port × Nat)) (s t : State) : Prop where
  record : ∀ p ∈ refs, t.record p.2 = { s.record p.2 with
    verdictPending := false
    keep := (s.record p.2).keep || decide (v ≠ .pass)
    state := if promoted v s p then .queued else (s.record p.2).state }
  otherRecord : ∀ n, n ∉ refs.map Prod.snd → t.record n = s.record n
  queue : ∀ p ∈ refs, t.liveQueue p.1 = if promoted v s p then s.liveQueue p.1 ++ [p.2] else s.liveQueue p.1
  otherQueue : ∀ k, k ∉ refs.map Prod.fst → t.liveQueue k = s.liveQueue k
  promoteFailed : ∀ p ∈ refs, t.portCount p.1 .promoteFailed = s.portCount p.1 .promoteFailed +
    if v ≠ .pass ∧ (s.record p.2).state = .held ∧ (s.record p.2).recallPending = false ∧
      64 ≤ (s.liveQueue p.1).length then 1 else 0
  otherCount : ∀ (k : Port) (c : PortCount), k ∉ refs.map Prod.fst ∨ c ≠ .promoteFailed →
    t.portCount k c = s.portCount k c
  rest : t = { s with
    store := { s.store with catalogue := t.store.catalogue }
    uplink := { s.uplink with live := t.uplink.live }
    events := { s.events with portCounts := t.events.portCounts } }

theorem referencesClosed_nil (v : Verdict) (s : State) : ReferencesClosed v [] s s where
  record := nofun
  otherRecord _ _ := rfl
  queue := nofun
  otherQueue _ _ := rfl
  promoteFailed := nofun
  otherCount _ _ _ := rfl
  rest := rfl

/-- The references after the first find their records, queues and counts as the first found them: it names another record of
another port. -/
theorem referencesClosed_cons {v : Verdict} {p : Port × Nat} {refs : List (Port × Nat)} {s t : State}
    (hwf : Table.wf FrameRecord.blank s.store.catalogue) (hport : (s.record p.2).port = p.1)
    (hfst : p.1 ∉ refs.map Prod.fst) (hsnd : p.2 ∉ refs.map Prod.snd)
    (h : ReferencesClosed v refs (closeReference v s p) t) : ReferencesClosed v (p :: refs) s t := by
  obtain ⟨hrecord, hother, hqueue, hqueues, hcount, hcounts, -, hrest⟩ := closeReference_spec v s p hwf hport
  have hne : ∀ q ∈ refs, q.2 ≠ p.2 ∧ q.1 ≠ p.1 := fun q hq =>
    ⟨fun e => hsnd (e ▸ List.mem_map_of_mem hq), fun e => hfst (e ▸ List.mem_map_of_mem hq)⟩
  have hpromoted : ∀ q ∈ refs, promoted v (closeReference v s p) q = promoted v s q := fun q hq => by
    unfold promoted
    rw [hother _ (hne q hq).1, hqueues _ (hne q hq).2]
  refine ⟨?record, fun n hn => ?otherRecord, ?queue, fun k hk => ?otherQueue, ?promoteFailed, fun k c hk => ?otherCount, ?rest⟩
  case record =>
    refine List.forall_mem_cons.mpr ⟨(h.otherRecord _ hsnd).trans hrecord, fun q hq => ?_⟩
    rw [h.record q hq, hother _ (hne q hq).1, hpromoted q hq]
  case otherRecord =>
    rw [List.map_cons, List.mem_cons, not_or] at hn
    exact (h.otherRecord n hn.2).trans (hother n hn.1)
  case queue =>
    refine List.forall_mem_cons.mpr ⟨(h.otherQueue _ hfst).trans hqueue, fun q hq => ?_⟩
    rw [h.queue q hq, hqueues _ (hne q hq).2, hpromoted q hq]
  case otherQueue =>
    rw [List.map_cons, List.mem_cons, not_or] at hk
    exact (h.otherQueue k hk.2).trans (hqueues k hk.1)
  case promoteFailed =>
    refine List.forall_mem_cons.mpr ⟨(h.otherCount _ _ (.inl hfst)).trans hcount, fun q hq => ?_⟩
    rw [h.promoteFailed q hq, hother _ (hne q hq).1, hqueues _ (hne q hq).2, hcounts _ _ (.inl (hne q hq).2)]
  case otherCount =>
    have hk' : (k ≠ p.1 ∧ k ∉ refs.map Prod.fst) ∨ c ≠ .promoteFailed := by
      simpa only [List.map_cons, List.mem_cons, not_or] using hk
    exact (h.otherCount k c (hk'.imp_left And.right)).trans (hcounts k c (hk'.imp_left And.left))
  case rest =>
    rw [h.rest, hrest]

theorem referencesClosed_foldl {v : Verdict} {refs : List (Port × Nat)} {s : State}
    (hwf : Table.wf FrameRecord.blank s.store.catalogue) (hfst : (refs.map Prod.fst).Nodup)
    (hsnd : (refs.map Prod.snd).Nodup) (hports : ∀ p ∈ refs, (s.record p.2).port = p.1) :
    ReferencesClosed v refs s (refs.foldl (closeReference v) s) := by
  induction refs generalizing s with
  | nil => exact referencesClosed_nil v s
  | cons p refs ih =>
    rw [List.map_cons, List.nodup_cons] at hfst hsnd
    obtain ⟨hport, hports⟩ := List.forall_mem_cons.mp hports
    obtain ⟨-, hother, -, -, -, -, hwf', -⟩ := closeReference_spec v s p hwf hport
    refine referencesClosed_cons hwf hport hfst.1 hsnd.1 (ih hwf' hfst.2 hsnd.2 fun q hq => ?_)
    rw [hother q.2 fun e => hsnd.1 (e ▸ List.mem_map_of_mem hq)]
    exact hports q hq

/-- Settles O19: the references are closed in turn, and the shot leaves the list. -/
theorem closeMarksAndPromotes : Obligations.CloseMarksAndPromotes := by
  intro s t v h hwf hfst hsnd hports ht
  obtain ⟨hrecord, hother, hqueue, hqueues, hcount, hcounts, hrest⟩ :=
    referencesClosed_foldl (v := v) hwf hfst hsnd hports
  subst ht
  refine ⟨hrecord, hother, hqueue, hqueues, hcount, hcounts, ?_⟩
  unfold closeShot
  dsimp only
  generalize h.refs.foldl (closeReference v) s = u at hrest ⊢
  rw [hrest]

end Sys2Proof.Machine
end

section
/-! PROOFS. The creation of shots by TRIGGER and by trigger edges (R23 to R27). -/

namespace Sys2Proof.Machine

/-! ### What each port's turn does to its own port -/

/-- Where the turn of a port acts on what is seen of that port alone, so do the turns of all ports. -/
theorem foldl_ports_locally {α : Type} {f : Port → State → State} {keeps : State → Prop} {seen : State → Port → α}
    {turn : Port → α → α}
    (hturn : ∀ k u, keeps u → keeps (f k u) ∧ seen (f k u) k = turn k (seen u k) ∧
      ∀ j, j ≠ k → seen (f k u) j = seen u j)
    (l : List Port) (hl : l.Nodup) (s : State) (hs : keeps s) :
    keeps (l.foldl (fun u k => f k u) s) ∧
      ∀ k, seen (l.foldl (fun u k => f k u) s) k = if k ∈ l then turn k (seen s k) else seen s k := by
  induction l generalizing s with
  | nil => exact ⟨hs, fun k => by simp⟩
  | cons i l ih =>
    obtain ⟨hkeeps, hown, hother⟩ := hturn i s hs
    rw [List.nodup_cons] at hl
    obtain ⟨hend, hseen⟩ := ih hl.2 _ hkeeps
    refine ⟨hend, fun k => (hseen k).trans ?_⟩
    by_cases hk : k = i
    · subst hk; simp [hl.1, hown]
    · simp [hk, hother k hk]

theorem eachPort_locally {α : Type} {f : Port → State → State} {keeps : State → Prop} {seen : State → Port → α}
    {turn : Port → α → α}
    (hturn : ∀ k u, keeps u → keeps (f k u) ∧ seen (f k u) k = turn k (seen u k) ∧
      ∀ j, j ≠ k → seen (f k u) j = seen u j) (s : State) (hs : keeps s) :
    keeps (eachPort f s) ∧ ∀ k, seen (eachPort f s) k = turn k (seen s k) := by
  obtain ⟨hend, hseen⟩ := foldl_ports_locally hturn allPorts (by decide) s hs
  exact ⟨hend, fun k => (hseen k).trans (if_pos (mem_allPorts k))⟩

/-! ### A port's turn at the creation of a shot -/

/-- What the newest shot makes of a port: whether it missed or fired it, its slot, pulses, misses and TRIGGER_MISSED flag. -/
structure PortTrigger where
  missed : Bool
  fired  : Bool
  slot   : Option TriggerSlot
  pulses : Nat
  misses : Word
  flag   : Bool

def State.portTrigger (s : State) (k : Port) : PortTrigger where
  missed := s.shots.shots.getLast?.any fun h => inMask h.missed k
  fired := s.shots.shots.getLast?.any fun h => inMask h.fired k
  slot := s.slot k
  pulses := s.ctrg[k]
  misses := s.portCount k .triggersMissed
  flag := s.events.flags.has (.port .triggerMissed k)

/-- A wanted port's turn (R25): a pulse at once, a trigger slot, or missed. -/
def PortTrigger.served (o : PortTrigger) (n : Half) (delay : Nat) (assignable : Bool) : PortTrigger :=
  if assignable ∧ o.slot = none then
    if delay = 0 then { o with fired := true, pulses := o.pulses + 1 }
    else { o with slot := some { shot := n, remaining := delay } }
  else { o with missed := true, misses := o.misses + 1, flag := true }

/-- `u` is `r`, whose newest shot is `h` behind the shots `older`, with some of its ports served. -/
def ShotServed (older : List Shot) (h : Shot) (r u : State) : Prop :=
  ∃ g : Shot, g = { h with fired := g.fired, missed := g.missed } ∧
    u.events.globalCounts = r.events.globalCounts ∧
    u = { r with
      shots := { r.shots with shots := older ++ [g], slots := u.shots.slots }
      ctrg := u.ctrg
      events := u.events }

/-- A change of the shot of a number reaches the newest alone when no older one bears the number. -/
theorem modShot_newest {older : List Shot} {g : Shot} {s : State} {n : Half} (hs : s.shots.shots = older ++ [g])
    (hg : g.number = n) (holder : ∀ h ∈ older, h.number ≠ n) (f : Shot → Shot) :
    modShot n f s = { s with shots := { s.shots with shots := older ++ [f g] } } := by
  have hmap : (older.map fun h => if h.number = n then f h else h) = older :=
    (List.map_congr_left fun h hh => if_neg (holder h hh)).trans (List.map_id _)
  simp only [modShot, hs, List.map_append, hmap, List.map_cons, List.map_nil, if_pos hg]

theorem assignSlot_of_delay {s : State} {k : Port} {n : Half} (h : slotAssignable (s.sup k).state ∧ s.slot k = none)
    (hd : s.shots.triggerDelay[k] ≠ 0) :
    assignSlot n k s = s.setSlot k (some { shot := n, remaining := s.shots.triggerDelay[k] }) := by
  simp only [assignSlot, if_pos h, if_neg hd]

theorem assignSlot_of_no_delay {s : State} {k : Port} {n : Half} (h : slotAssignable (s.sup k).state ∧ s.slot k = none)
    (hd : s.shots.triggerDelay[k] = 0) :
    assignSlot n k s = modShot n (fun g => { g with fired := g.fired ||| portBit k })
      { s with ctrg := s.ctrg.set k (s.ctrg[k] + 1) } := by
  have hslot : (s.shots.slots.set k none : PerPort (Option TriggerSlot)) = s.shots.slots := by
    have : s.shots.slots[k] = none := h.2
    rw [← this]
    exact Vector.set_getElem_self ..
  simp only [assignSlot, if_pos h, if_pos hd]
  rw [expireSlot_of_pending (State.slot_setSlot ..)]
  simp only [State.setSlot, Vector.set_set, hslot]
  rfl

theorem assignSlot_of_not_free {s : State} {k : Port} {n : Half}
    (h : ¬(slotAssignable (s.sup k).state ∧ s.slot k = none)) :
    assignSlot n k s = ((modShot n (fun g => { g with missed := g.missed ||| portBit k }) s).raisePort k
      .triggerMissed).count k .triggersMissed := by
  simp only [assignSlot, if_neg h]

theorem portTrigger_of_newest {s : State} {older : List Shot} {g : Shot} (hs : s.shots.shots = older ++ [g]) (k : Port) :
    s.portTrigger k = ⟨inMask g.missed k, inMask g.fired k, s.slot k, s.ctrg[k], s.portCount k .triggersMissed,
      s.events.flags.has (.port .triggerMissed k)⟩ := by
  simp [State.portTrigger, hs]

theorem portCount_count_ne {j k : Port} (h : j ≠ k) (s : State) (c d : PortCount) :
    (s.count k c).portCount j d = s.portCount j d := by
  have : k.val ≠ j.val := fun e => h (Fin.ext e.symm)
  simp [State.portCount, State.count, this]

theorem has_flags_raisePort (s : State) (k : Port) (p : PortEvent) (e : Event) :
    (s.raisePort k p).events.flags.has e = (s.events.flags.has e || decide (e = .port p k)) :=
  Events.has_flags_raise ..

section
variable {older : List Shot} {h : Shot} {r u : State}

/-- A port's turn at a shot's creation, as the port sees it. -/
theorem assignSlot_served (hu : ShotServed older h r u) (holder : ∀ g ∈ older, g.number ≠ h.number) (k : Port) :
    ShotServed older h r (assignSlot h.number k u) ∧
      (assignSlot h.number k u).portTrigger k =
        (u.portTrigger k).served h.number r.shots.triggerDelay[k] (slotAssignable (r.sup k).state) ∧
      ∀ j, j ≠ k → (assignSlot h.number k u).portTrigger j = u.portTrigger j := by
  obtain ⟨g, hg, hcounts, hrest⟩ := hu
  have hshots : u.shots.shots = older ++ [g] := by rw [hrest]
  have hnumber : g.number = h.number := by rw [hg]
  have hsup : r.sup k = u.sup k := by rw [hrest]; rfl
  have hdelay : r.shots.triggerDelay[k] = u.shots.triggerDelay[k] := by rw [hrest]
  have hseen := portTrigger_of_newest hshots
  rw [hsup, hdelay, PortTrigger.served, hseen k]
  by_cases hfree : slotAssignable (u.sup k).state ∧ u.slot k = none
  · rw [if_pos hfree]
    by_cases hd : u.shots.triggerDelay[k] = 0
    · rw [if_pos hd, assignSlot_of_no_delay hfree hd, modShot_newest (by exact hshots) hnumber holder]
      refine ⟨⟨{ g with fired := g.fired ||| portBit k }, by rw [hg], hcounts, by rw [hrest]⟩, ?_, fun j hj => ?_⟩
      · rw [portTrigger_of_newest rfl]
        simp [inMask_or_portBit, State.slot, State.portCount]
      · have : k.val ≠ j.val := fun e => hj (Fin.ext e.symm)
        rw [portTrigger_of_newest rfl, hseen]
        simp [inMask_or_portBit, State.slot, State.portCount, hj, this]
    · rw [if_neg hd, assignSlot_of_delay hfree hd]
      refine ⟨⟨g, hg, hcounts, ?_⟩, ?_, fun j hj => ?_⟩
      · rw [hrest]; rfl
      · rw [portTrigger_of_newest (older := older) (g := g) (by exact hshots)]
        simp [State.portCount]
      · rw [portTrigger_of_newest (older := older) (g := g) (by exact hshots), hseen, State.slot_setSlot_ne _ _ hj]
        rfl
  · rw [if_neg hfree, assignSlot_of_not_free hfree, modShot_newest hshots hnumber holder]
    refine ⟨⟨{ g with missed := g.missed ||| portBit k }, by rw [hg], hcounts, ?_⟩, ?_, fun j hj => ?_⟩
    · rw [hrest]; rfl
    · rw [portTrigger_of_newest rfl, State.portCount_count]
      simp [inMask_or_portBit, State.slot, State.portCount, has_flags_raisePort]
    · rw [portTrigger_of_newest rfl, hseen, portCount_count_ne hj]
      simp [inMask_or_portBit, State.slot, State.portCount, has_flags_raisePort, hj]

end

/-! ### The shot created (R23) -/

/-- The device with the record of the new shot on its list and in the window, no port served yet. -/
def withNewShot (h : Shot) (s : State) : State :=
  { s with shots := { s.shots with
      shots := s.shots.shots ++ [h], next := s.shots.next + 1, window := windowWith s.shots.window h.number } }

theorem createShot_eq (wanted : BitVec 8) (keep : Bool) (tag : Option Word) (origin : Origin) (s : State) :
    createShot wanted keep tag origin s =
      eachPort (fun k u => if inMask wanted k then assignSlot (withShotRoom s).shots.next k u else u)
        (withNewShot (newShot (withShotRoom s) wanted keep tag origin) (withShotRoom s)) := by
  rw [withShotRoom_eq]
  rfl

/-- A slot is free for the shot exactly when the port may be given one and has none. -/
theorem slotFree_iff (k : Port) (s : State) :
    slotFree k s = true ↔ slotAssignable (s.sup k).state = true ∧ s.slot k = none := by
  simp [slotFree, slotAssignable, and_assoc]

/-- A port before its turn. -/
def State.portUnserved (s : State) (k : Port) : PortTrigger where
  missed := false
  fired := false
  slot := s.slot k
  pulses := s.ctrg[k]
  misses := s.portCount k .triggersMissed
  flag := s.events.flags.has (.port .triggerMissed k)

theorem portTrigger_withNewShot (s : State) (wanted : BitVec 8) (keep : Bool) (tag : Option Word) (origin : Origin)
    (k : Port) :
    (withNewShot (newShot s wanted keep tag origin) s).portTrigger k = s.portUnserved k :=
  have hnone : inMask 0 k = false := BitVec.getLsbD_zero
  (portTrigger_of_newest rfl k).trans (by simp only [newShot, hnone]; rfl)

/-- A port's turn written out, wanted or not. -/
theorem served_eq (s : State) (wanted : BitVec 8) (k : Port) :
    (if inMask wanted k then
        (s.portUnserved k).served s.shots.next s.shots.triggerDelay[k] (slotAssignable (s.sup k).state)
      else s.portUnserved k) =
    { missed := inMask wanted k && !slotFree k s
      fired := inMask wanted k && slotFree k s && decide (s.shots.triggerDelay[k] = 0)
      slot := if inMask wanted k && slotFree k s && decide (s.shots.triggerDelay[k] ≠ 0) then
          some { shot := s.shots.next, remaining := s.shots.triggerDelay[k] }
        else s.slot k
      pulses := s.ctrg[k] + if inMask wanted k && slotFree k s && decide (s.shots.triggerDelay[k] = 0) then 1 else 0
      misses := s.portCount k .triggersMissed + if inMask wanted k && !slotFree k s then 1 else 0
      flag := s.events.flags.has (.port .triggerMissed k) || (inMask wanted k && !slotFree k s) } := by
  have hfree := slotFree_iff k s
  have hslot : (s.portUnserved k).slot = s.slot k := rfl
  unfold PortTrigger.served
  rw [hslot]
  cases hw : inMask wanted k with
  | false => simp [State.portUnserved]
  | true =>
    cases hs : slotFree k s with
    | false =>
      rw [if_pos rfl, if_neg (by simp [← hfree, hs])]
      simp [State.portUnserved]
    | true =>
      rw [if_pos rfl, if_pos (hfree.mp hs)]
      generalize s.shots.triggerDelay[k] = delay
      by_cases hd : delay = 0
      · rw [if_pos hd]; simp [State.portUnserved, hd]
      · rw [if_neg hd]; simp [State.portUnserved, hd]

/-- The turns of all ports, for a shot whose number no older one bears. -/
theorem shotServed_eachPort {wanted : BitVec 8} {older : List Shot} {h : Shot} {r : State}
    (holder : ∀ g ∈ older, g.number ≠ h.number) (hr : ShotServed older h r r) :
    ShotServed older h r (eachPort (fun k u => if inMask wanted k then assignSlot h.number k u else u) r) ∧
      ∀ k, (eachPort (fun k u => if inMask wanted k then assignSlot h.number k u else u) r).portTrigger k =
        if inMask wanted k then
          (r.portTrigger k).served h.number r.shots.triggerDelay[k] (slotAssignable (r.sup k).state)
        else r.portTrigger k := by
  refine eachPort_locally (seen := State.portTrigger) (turn := fun k o => if inMask wanted k then
    PortTrigger.served o h.number r.shots.triggerDelay[k] (slotAssignable (r.sup k).state) else o)
    (fun k u hu => ?_) r hr
  by_cases hk : inMask wanted k = true
  · simp only [if_pos hk]
    exact assignSlot_served hu holder k
  · simp only [if_neg hk]
    exact ⟨hu, trivial, fun _ _ => trivial⟩

theorem shotCreated_of_served {s t : State} {wanted : BitVec 8} {keep : Bool} {tag : Option Word} {origin : Origin}
    (hserved : ShotServed s.shots.shots (newShot s wanted keep tag origin)
      (withNewShot (newShot s wanted keep tag origin) s) t)
    (hseen : ∀ k, t.portTrigger k = if inMask wanted k then
        (s.portUnserved k).served s.shots.next s.shots.triggerDelay[k] (slotAssignable (s.sup k).state)
      else s.portUnserved k) : shotCreated s t wanted keep tag origin := by
  obtain ⟨g, hg, hcounts, hrest⟩ := hserved
  have hshots : t.shots.shots = s.shots.shots ++ [g] := by rw [hrest]
  have hport := fun k => (portTrigger_of_newest hshots k).symm.trans ((hseen k).trans (served_eq s wanted k))
  simp only [PortTrigger.mk.injEq] at hport
  refine ⟨⟨g, hshots, ?_⟩, ?_, ?_, fun k => (hport k).2.2.1, fun k => (hport k).2.2.2.1, fun k => (hport k).2.2.2.2.1,
    fun k => (hport k).2.2.2.2.2, hcounts, ?_⟩
  · have hmasks := fun k => And.intro (hport k).1 (hport k).2.1
    rw [hg]
    refine ⟨rfl, rfl, rfl, rfl, rfl, rfl, rfl, Nat.mul_comm .., rfl, hmasks⟩
  · rw [hrest]; rfl
  · rw [hrest]; rfl
  · rw [hrest]
    exact ⟨rfl, rfl, rfl, rfl, rfl, rfl, rfl, rfl, rfl, rfl, rfl⟩

/-- The creation of a shot whose number no shot left open bears. -/
theorem shotCreated_createShot {s : State}
    (h : ∀ g ∈ (withShotRoom s).shots.shots, g.number ≠ (withShotRoom s).shots.next) (wanted : BitVec 8) (keep : Bool)
    (tag : Option Word) (origin : Origin) :
    shotCreated (withShotRoom s) (createShot wanted keep tag origin s) wanted keep tag origin := by
  rw [createShot_eq]
  generalize withShotRoom s = r at h ⊢
  obtain ⟨hserved, hseen⟩ := shotServed_eachPort (wanted := wanted) (h := newShot r wanted keep tag origin)
    (r := withNewShot (newShot r wanted keep tag origin) r) h ⟨newShot r wanted keep tag origin, rfl, rfl, rfl⟩
  refine shotCreated_of_served hserved fun k => (hseen k).trans ?_
  rw [portTrigger_withNewShot]
  rfl

/-- Making room closes shots and leaves the next number. -/
theorem shots_withShotRoom (s : State) :
    (withShotRoom s).shots.next = s.shots.next ∧ ∀ g ∈ (withShotRoom s).shots.shots, g ∈ s.shots.shots := by
  have hclose : ∀ (v : Verdict) (h : Shot), (closeShot v h s).shots.next = s.shots.next ∧
      ∀ g ∈ (closeShot v h s).shots.shots, g ∈ s.shots.shots := fun v h => by
    simp only [closeShot, shots_foldl_closeReference]
    exact ⟨trivial, fun g hg => List.mem_of_mem_filter hg⟩
  unfold withShotRoom
  split
  · exact ⟨rfl, fun _ hg => hg⟩
  · split
    · exact ⟨rfl, fun _ hg => hg⟩
    · exact hclose _ _

theorem numbers_withShotRoom {s : State} (h : ∀ g ∈ s.shots.shots, g.number ≠ s.shots.next) :
    ∀ g ∈ (withShotRoom s).shots.shots, g.number ≠ (withShotRoom s).shots.next := by
  obtain ⟨hnext, hmem⟩ := shots_withShotRoom s
  rw [hnext]
  exact fun g hg => h g (hmem g hg)

/-! ### TRIGGER and trigger edges (R26, R27) -/

theorem handleTrigger_of_choices {keep tagPresent : Byte} (hk : keep = 0 ∨ keep = 1)
    (ht : tagPresent = 0 ∨ tagPresent = 1) (mask : Byte) (tag : Word) (s : State) :
    handleTrigger .line mask keep tagPresent tag s =
      (createShot mask (decide (keep = 1)) (if tagPresent = 1 then some tag else none) .request s,
        doneWith (be16 s.shots.next)) := by
  have : ¬(1 < keep.toNat ∨ 1 < tagPresent.toNat) := by bv_omega
  simp only [handleTrigger, if_neg this]

theorem handleTrigger_of_bad {keep tagPresent : Byte}
    (h : (keep ≠ 0 ∧ keep ≠ 1) ∨ (tagPresent ≠ 0 ∧ tagPresent ≠ 1)) (mask : Byte) (tag : Word) (s : State) :
    handleTrigger .line mask keep tagPresent tag s = (s, refuse .badValue) := by
  have : 1 < keep.toNat ∨ 1 < tagPresent.toNat := by bv_omega
  simp only [handleTrigger, if_pos this]

theorem exec_trigger_of_takable {m : Master} {s t : State} {r : Reply} {mask keep tagPresent : Byte} {tag : Word}
    (h : takable m s) (ref : Half) (hr : handleTrigger m mask keep tagPresent tag (heard m s) = (t, r)) :
    exec (.trigger m ref mask keep tagPresent tag) s = .next (answered m (answerTo ref 0x06 r) t) :=
  congrArg Host.Outcome.next (arrive_of_handle (req := .trigger mask keep tagPresent tag) h ref rfl hr)

theorem exec_triggerEdge (pin : Fin 4) (s : State) : exec (.triggerEdge pin) s =
    .next (if s.shots.pinMasks[pin] = 0 then s else createShot s.shots.pinMasks[pin] false none (.pin pin) s) := rfl

/-- Settles O15: both ways to a shot create it in the device with room for it. -/
theorem triggersCreateShots : Obligations.TriggersCreateShots := by
  refine ⟨fun s ref mask keep tagPresent tag hnew => ⟨fun hk ht => ?_, fun hbad => ?_⟩,
    fun s ref mask keep tagPresent tag htake => ?_, fun s pin hnew => ⟨fun hmask => ?_, fun hmask => ?_⟩⟩
  · have hheard : ∀ g ∈ (heard .line s).shots.shots, g.number ≠ (heard .line s).shots.next := by simpa using hnew
    refine ⟨_, shotCreated_createShot (numbers_withShotRoom hheard) .., ?_⟩
    exact exec_trigger_of_takable (takable_line s) ref (handleTrigger_of_choices hk ht ..)
  · exact exec_trigger_of_takable (takable_line s) ref (handleTrigger_of_bad hbad ..)
  · exact exec_trigger_of_takable htake ref rfl
  · rw [exec_triggerEdge, if_pos hmask]
  · refine ⟨_, shotCreated_createShot (numbers_withShotRoom hnew) .., ?_⟩
    rw [exec_triggerEdge, if_neg hmask]

end Sys2Proof.Machine
end

section
/-! PROOFS. Writes of a camera port's enable, warm-up armed and trip threshold, and of the line watchdog; the expiry of a
warm-up (R38, R66 to R68, R80). -/

namespace Sys2Proof.Machine

/-! ### Writes of a setting by a row of its own -/

@[simp] theorem storedValue_heard (x : Setting) (v : Word) (m : Master) (s : State) :
    storedValue x v (heard m s) = storedValue x v s := by
  unfold storedValue
  simp only [heard_sup, heard_link]

section

variable {m : Master} {s : State} {l : Fin 13} {record field : Byte} {x : Setting} {v : Word}

/-- A write that its value, the other master's lock and TRIPPED do not bar is taken. -/
theorem arrive_write_taken (htake : takable m s) (hl : record.toNat = l.val) (hu : unbarred m l s)
    (hx : resolveField record field = .ok (.setting x)) (hv : x.badValue v = false) (hbar : targetBarred x s = false)
    (ref : Half) :
    arrive m ref (.write record field v) s =
      answered m (doneAnswer 0x02 ref (be32 (storedValue x v s))) (writeSetting x v (heard m s)) := by
  rw [arrive_write_of_unbarred ref v htake hl hu hx, valueRefused_of_unbarred hv (by rwa [targetBarred_heard])]
  dsimp only
  rw [readSetting_writeSetting hv, storedValue_heard]

theorem arrive_write_badValue (htake : takable m s) (hl : record.toNat = l.val) (hu : unbarred m l s)
    (hx : resolveField record field = .ok (.setting x)) (hv : x.badValue v = true) (ref : Half) :
    arrive m ref (.write record field v) s = answered m (refusedAnswer 0x02 ref .badValue) (heard m s) := by
  rw [arrive_write_of_unbarred ref v htake hl hu hx, valueRefused_of_badValue hv]

end

theorem badValue_eq_true {x : Setting} {n : Nat} {v : Word} (hx : x.enumSize = some n) (hv : n ≤ v.toNat) :
    x.badValue v = true := by
  simp [Setting.badValue, hx, hv]

theorem badValue_eq_false {x : Setting} {n : Nat} {v : Word} (hx : x.enumSize = some n) (hv : v.toNat < n) :
    x.badValue v = false := by
  simp [Setting.badValue, hx, hv]

/-! ### Warm-up armed and warm-up expiry (R67, R68) -/

section

variable {m : Master} {s : State} {k : Port} {v : Word}

theorem exec_warmupArmedWrite_taken (htake : takable m s) (hu : unbarred m (chanRecord (chanOf k)) s)
    (hv : v.toNat < 2) (ref : Half) :
    exec (.warmupArmedWrite m ref k v) s = .next (answered m
      (doneAnswer 0x02 ref (be32 (storedValue (.port k .warmupArmed) v s))) (writeWarmupArmed k v (heard m s))) :=
  congrArg Host.Outcome.next (arrive_write_taken htake (toNat_byteOf_chan (chanOf k)) hu (resolveField_warmupArmed k)
    (badValue_eq_false (n := 2) rfl hv) rfl ref)

theorem writeWarmupArmed_zero (h : (s.sup k).state ≠ .warmup) :
    writeWarmupArmed k 0 s = s.modSup k fun u => { u with warmupArmed := false } := by
  unfold writeWarmupArmed
  rw [if_pos rfl]
  exact if_neg (by rwa [State.sup_modSup])

/-- The end of a warm-up clears warm-up armed in any case. -/
theorem writeWarmupArmed_zero_of_warmup (h : (s.sup k).state = .warmup) :
    writeWarmupArmed k 0 s = warmupEnded k s := by
  unfold writeWarmupArmed
  rw [if_pos rfl]
  dsimp only
  rw [if_pos (by rwa [State.sup_modSup]), endWarmup_eq]
  unfold warmupEnded
  simp only [State.modSup_modSup]
  rfl

theorem writeWarmupArmed_one (h : (s.sup k).state = .disabled) :
    writeWarmupArmed k 1 s = s.modSup k fun u => { u with warmupArmed := true } := by
  unfold writeWarmupArmed
  rw [if_neg (by decide), if_pos h]

theorem writeWarmupArmed_one_of_ne (h : (s.sup k).state ≠ .disabled) : writeWarmupArmed k 1 s = s := by
  unfold writeWarmupArmed
  rw [if_neg (by decide), if_neg h]

end

theorem exec_warmupExpiry (k : Port) (s : State) : exec (.warmupExpiry k) s =
    .next (if (s.sup k).state = .warmup ∧ ranOut (s.sup k).warmupTimer then
      endWarmup k (s.raisePort k .warmupTimeout) else s) := rfl

/-- Settles O24: each value by the state the port is in, then the timer's expiry. -/
theorem warmupArmedAndExpiry : Obligations.WarmupArmedAndExpiry := by
  refine ⟨fun s m ref k v htake hu => ⟨fun hv => ?_, fun hv hs => ?_, fun hv hs => ?_, fun hv hs => ?_, fun hv hs => ?_⟩,
    fun s k hs => ⟨fun ht => ?_, fun ht => ?_⟩⟩
  · exact congrArg Host.Outcome.next (arrive_write_badValue htake (toNat_byteOf_chan (chanOf k)) hu
      (resolveField_warmupArmed k) (badValue_eq_true (n := 2) rfl hv) ref)
  · subst hv
    rw [exec_warmupArmedWrite_taken htake hu (by decide), writeWarmupArmed_zero (by rwa [heard_sup])]
    rfl
  · subst hv
    rw [exec_warmupArmedWrite_taken htake hu (by decide), writeWarmupArmed_zero_of_warmup (by rwa [heard_sup])]
    rfl
  · subst hv
    rw [exec_warmupArmedWrite_taken htake hu (by decide), writeWarmupArmed_one (by rwa [heard_sup])]
    simp [storedValue, hs]
  · subst hv
    rw [exec_warmupArmedWrite_taken htake hu (by decide), writeWarmupArmed_one_of_ne (by rwa [heard_sup])]
    cases harmed : (s.sup k).warmupArmed <;> simp [storedValue, hs, harmed, bitCode, wordOf]
  · rw [exec_warmupExpiry, if_pos ⟨hs, by simp [ranOut, ht]⟩, endWarmup_eq]
  · rw [exec_warmupExpiry, if_neg fun h => ht (by simpa [ranOut] using h.2)]

/-! ### The trip threshold and the line watchdog (R38, R80) -/

/-- A write of the line watchdog field, the device it is heard in written out (R38, R40). -/
theorem writeSetting_lineWatchdog_heard (m : Master) (s : State) {v : Word} {p : Fin 4} (hv : v.toNat = p.val) :
    writeSetting .lineWatchdog v (heard m s) = { s with shots := { s.shots with
      lineState := if m = .line then .attended else s.shots.lineState
      watchdogPeriod := p
      watchdog := if m = .office ∧ s.shots.lineState = .silent then none else watchdogTime p } } := by
  have hp : position 4 (by decide) v = p := Fin.ext (by simp [position, hv, Nat.mod_eq_of_lt p.isLt])
  cases m with
  | line => simp only [writeSetting, hp, heard_line, restartWatchdog, if_true]; rfl
  | office =>
    cases hl : s.shots.lineState <;> simp [writeSetting, hp, heard, restartWatchdog, hl]

theorem resolveField_lineWatchdog : resolveField 0x0C 0x01 = .ok (.setting .lineWatchdog) := by decide

theorem watchdogTime_eq (p : Fin 4) : watchdogTime p =
    match p with | 0 => none | 1 => some 1000000 | 2 => some 2000000 | 3 => some 8000000 := by
  fin_cases p <;> rfl

/-- Settles O25. -/
theorem thresholdAndWatchdogWrites : Obligations.ThresholdAndWatchdogWrites := by
  refine ⟨fun s m ref k v htake hu => ?_, fun s m ref v p htake hu hv => ?_⟩
  · exact congrArg Host.Outcome.next (arrive_write_taken htake (toNat_byteOf_chan (chanOf k)) hu
      (resolveField_tripThreshold k) rfl rfl ref)
  · have hlt : v.toNat < 4 := hv ▸ p.isLt
    have hwrite : exec (.lineWatchdogWrite m ref v) s = .next (answered m (doneAnswer 0x02 ref (be32 v))
        (writeSetting .lineWatchdog v (heard m s))) :=
      congrArg Host.Outcome.next (arrive_write_taken (l := 12) (record := 0x0C) (x := .lineWatchdog) htake rfl hu
        resolveField_lineWatchdog (badValue_eq_false (n := 4) rfl hlt) rfl ref)
    have hstate := writeSetting_lineWatchdog_heard m s hv
    rw [watchdogTime_eq] at hstate
    exact hwrite.trans (congrArg (fun u => Host.Outcome.next (answered m (doneAnswer 0x02 ref (be32 v)) u)) hstate)

end Sys2Proof.Machine
end

section
/-! PROOFS. Writes of enable, and the records a stop of reception completes (R18, R66). -/

namespace Sys2Proof.Machine

/-! ### A truncated record is kept (R15, R16, R18) -/

section

variable {k : Port} {n : Nat} {u : State}

/-- Placement outside THROTTLED, under a policy that keeps damaged records, queues or holds the record and changes the store
in nothing else. -/
theorem store_placeRecord (hs : (u.sup k).state ≠ .throttled) (hp : (u.cam k).policy ≠ .discard) :
    ∃ st, (st = .queued ∨ st = .held) ∧
      (placeRecord k n u).store = (u.setRecord n { u.record n with state := st }).store := by
  have hclean : ∃ st, (st = .queued ∨ st = .held) ∧
      (placeClean k n u).store = (u.setRecord n { u.record n with state := st }).store := by
    rw [placeClean_of_free (.inr hs), queueOrHold_eq rfl]
    split
    · exact ⟨.queued, .inl rfl, rfl⟩
    · exact ⟨.held, .inr rfl, rfl⟩
  cases hpolicy : (u.cam k).policy with
  | send => rwa [placeRecord_of_clean (.inr hpolicy)]
  | discard => exact absurd hpolicy hp
  | hold =>
    by_cases hf : (u.record n).flags = 0
    · rwa [placeRecord_of_clean (.inl hf)]
    · exact ⟨.held, .inr rfl, by rw [placeRecord_of_hold hf hpolicy]; rfl⟩

/-- A completion places the record in a device whose age list ends in it. -/
theorem complete_shape (k : Port) (n : Nat) (s : State) :
    ∃ v : State, complete k n s = placeRecord k n (warmupCompletion k v) ∧
      v.store = { s.store with ageList := s.store.ageList ++ [n] } ∧ v.sup k = s.sup k ∧
      (v.cam k).policy = (s.cam k).policy := by
  unfold complete
  dsimp only
  refine ⟨_, rfl, ?_, ?_, ?_⟩
  · split <;> rfl
  · split <;> rfl
  · rw [State.cam_modCam]
    split <;> rfl

/-- Record `n` is kept: truncated, queued or held, and at the end of the age list. -/
def RecordKept (n : Nat) (u t : State) : Prop :=
  ∃ st, (st = .queued ∨ st = .held) ∧ t.store = { (u.setRecord n { u.record n with
    flags := (u.record n).flags ||| 0x20, state := st }).store with ageList := u.store.ageList ++ [n] }

theorem recordKept_truncateAndComplete (hs : (u.sup k).state ≠ .warmup) (hs' : (u.sup k).state ≠ .throttled)
    (hp : (u.cam k).policy ≠ .discard) (hn : (u.record n).state = .filling) :
    RecordKept n u (truncateAndComplete k u n) := by
  let r : FrameRecord := { u.record n with flags := (u.record n).flags ||| 0x20 }
  have hr : r.state ≠ .free := by
    change (u.record n).state ≠ .free
    rw [hn]
    exact RecState.noConfusion
  obtain ⟨v, hv, hstore, hsup, hpolicy⟩ := complete_shape k n (u.setRecord n r)
  have hvr : v.record n = r := by
    unfold State.record
    rw [hstore]
    exact State.record_setRecord_of_used _ _ hr
  obtain ⟨st, hst, hplaced⟩ := store_placeRecord (k := k) (n := n) (u := v) (by rwa [hsup]) (by rwa [hpolicy])
  have hq : ({ r with state := st } : FrameRecord).state ≠ .free := by
    rcases hst with rfl | rfl <;> exact RecState.noConfusion
  rw [warmupCompletion_of_ne (by rwa [hsup])] at hv
  refine ⟨st, hst, ((congrArg State.store hv).trans hplaced).trans ?_⟩
  rw [hvr, ← State.setRecord_setRecord u n hr hq]
  simp only [State.setRecord, hstore]

/-- What keeping a record does to the age list and the records. -/
theorem RecordKept.spec {t : State} (h : RecordKept n u t) (hwf : Table.wf FrameRecord.blank u.store.catalogue) :
    t.store.ageList = u.store.ageList ++ [n] ∧
      (t.record n = { u.record n with flags := (u.record n).flags ||| 0x20, state := (t.record n).state } ∧
        ((t.record n).state = .queued ∨ (t.record n).state = .held)) ∧
      (∀ i, i ≠ n → t.record i = u.record i) ∧ Table.wf FrameRecord.blank t.store.catalogue := by
  obtain ⟨st, hst, hstore⟩ := h
  have hrec : t.record = (u.setRecord n { u.record n with
      flags := (u.record n).flags ||| 0x20, state := st }).record := by
    have hcatalogue := congrArg Store.catalogue hstore
    unfold State.record
    rw [hcatalogue]
    rfl
  refine ⟨by rw [hstore], ?_, fun i hi => ?_, ?_⟩
  · rw [hrec, State.record_setRecord hwf]
    exact ⟨rfl, hst⟩
  · rw [hrec, State.record_setRecord_other hwf hi]
  · rw [hstore]
    exact Table.wf_set hwf _ _

theorem policy_truncateAndComplete (k : Port) (n : Nat) (u : State) :
    ((truncateAndComplete k u n).cam k).policy = (u.cam k).policy := by
  unfold truncateAndComplete
  rw [(completionFrame_complete k n _).cam]
  rfl

/-- The truncations of a stop keep every record of the list, in its order. -/
theorem records_truncations (hs : (u.sup k).state ≠ .warmup) (hs' : (u.sup k).state ≠ .throttled)
    (hp : (u.cam k).policy ≠ .discard) {todo : List Nat} (hnodup : todo.Nodup)
    (hfill : ∀ i ∈ todo, (u.record i).state = .filling) (hwf : Table.wf FrameRecord.blank u.store.catalogue) :
    (todo.foldl (truncateAndComplete k) u).store.ageList = u.store.ageList ++ todo ∧
      (∀ i ∈ todo, (todo.foldl (truncateAndComplete k) u).record i = { u.record i with
          flags := (u.record i).flags ||| 0x20, state := ((todo.foldl (truncateAndComplete k) u).record i).state } ∧
        (((todo.foldl (truncateAndComplete k) u).record i).state = .queued ∨
          ((todo.foldl (truncateAndComplete k) u).record i).state = .held)) ∧
      ∀ i, i ∉ todo → (todo.foldl (truncateAndComplete k) u).record i = u.record i := by
  induction todo generalizing u with
  | nil => exact ⟨(List.append_nil _).symm, nofun, fun _ _ => rfl⟩
  | cons n todo ih =>
    rw [List.nodup_cons] at hnodup
    obtain ⟨hn, hfill⟩ := List.forall_mem_cons.mp hfill
    obtain ⟨hage, hrec, hother, hwf'⟩ := (recordKept_truncateAndComplete hs hs' hp hn).spec hwf
    have hsup : (truncateAndComplete k u n).sup k = u.sup k := sup_complete (s := u.modRecord n _) hs hs'
    obtain ⟨hage', hrec', hother'⟩ := ih (u := truncateAndComplete k u n) (by rwa [hsup]) (by rwa [hsup])
      (by rwa [policy_truncateAndComplete])
      hnodup.2 (fun i hi => by rw [hother i fun e => hnodup.1 (e ▸ hi)]; exact hfill i hi) hwf'
    rw [List.foldl_cons]
    refine ⟨by rw [hage', hage, List.append_assoc]; rfl, List.forall_mem_cons.mpr ⟨?_, fun i hi => ?_⟩, fun i hi => ?_⟩
    · rw [hother' n hnodup.1]
      exact hrec
    · rw [← hother i fun e => hnodup.1 (e ▸ hi)]
      exact hrec' i hi
    · rw [List.mem_cons, not_or] at hi
      exact (hother' i hi.2).trans (hother i hi.1)

end

/-! ### Writes of enable (R66) -/

section

variable {m : Master} {s : State} {k : Port} {v : Word}

theorem exec_enableWrite_taken (htake : takable m s) (hu : unbarred m (chanRecord (chanOf k)) s) (hv : v.toNat < 2)
    (ref : Half) : exec (.enableWrite m ref k v) s =
      .next (answered m (doneAnswer 0x02 ref (be32 v)) (writeEnable k v (heard m s))) :=
  congrArg Host.Outcome.next (arrive_write_taken htake (toNat_byteOf_chan (chanOf k)) hu (resolveField_enable k)
    (badValue_eq_false (n := 2) rfl hv) rfl ref)

theorem writeEnable_same (h : (v = 1 ∧ (s.sup k).state ≠ .disabled) ∨ (v = 0 ∧ (s.sup k).state = .disabled)) :
    writeEnable k v s = s := by
  unfold writeEnable
  rcases h with ⟨rfl, h⟩ | ⟨rfl, h⟩
  · rw [if_neg (by decide), if_neg h]
  · rw [if_pos rfl, if_pos h]

theorem writeEnable_one (h : (s.sup k).state = .disabled) : writeEnable k 1 s = enablePort k s := by
  unfold writeEnable
  rw [if_neg (by decide), if_pos h]

theorem writeEnable_zero (h : (s.sup k).state ≠ .disabled) : writeEnable k 0 s = disablePort k s := by
  unfold writeEnable
  rw [if_pos rfl, if_neg h]

theorem enterWarmup_eq (k : Port) (s : State) :
    enterWarmup k s = (s.modSup k fun u =>
      { u with state := .warmup, warmupTimer := some (warmupTime u.warmupLength), warmupCompletions := 0 }).modChan
        (chanOf k) fun c => { c with credit := if c.target = 0 then c.credit else 16 * c.ceiling } := by
  unfold enterWarmup
  refine State.modChan_congr _ _ ?_
  split <;> rfl

/-- A disable works on the store as the truncations of its stop do. -/
theorem store_disablePort (k : Port) (s : State) : ∃ u : State,
    (disablePort k s).store = (((s.cam k).completion ++ (s.cam k).current.toList).foldl (truncateAndComplete k) u).store ∧
      u.store = s.store ∧ (u.sup k).state = .disabled ∧ (u.cam k).policy = (s.cam k).policy := by
  unfold disablePort
  dsimp only
  rw [abandonDarkVisit_eq]
  refine ⟨_, rfl, rfl, ?_, ?_⟩
  · rw [State.sup_modCam, State.sup_modSup]
  · rw [State.cam_modCam]
    rfl

end

/-- Settles O23: the write by its value and the state it finds; what a stop does to the port is `disablePort_spec`, and what it
does to the records is `records_truncations`. -/
theorem enableWriteStartsAndStops : Obligations.EnableWriteStartsAndStops := by
  refine ⟨fun s m ref k v htake hu => ⟨fun hv => ?_, fun h => ?_, fun hv hs ha => ?_, fun hv hs ha => ?_, fun hv hs => ?_⟩,
    fun s m ref k todo htake hu hs htodo hnodup hfill hp hwf => ?_⟩
  · exact congrArg Host.Outcome.next (arrive_write_badValue htake (toNat_byteOf_chan (chanOf k)) hu
      (resolveField_enable k) (badValue_eq_true (n := 2) rfl hv) ref)
  · have hv : v.toNat < 2 := by rcases h with ⟨rfl, -⟩ | ⟨rfl, -⟩ <;> decide
    rw [exec_enableWrite_taken htake hu hv, writeEnable_same (by rwa [heard_sup])]
  · subst hv
    rw [exec_enableWrite_taken htake hu (by decide), writeEnable_one (by rwa [heard_sup])]
    unfold enablePort
    rw [heard_sup, ha]
    rfl
  · subst hv
    rw [exec_enableWrite_taken htake hu (by decide), writeEnable_one (by rwa [heard_sup])]
    unfold enablePort
    rw [heard_sup, if_pos ha, enterWarmup_eq]
  · subst hv
    have hrun := exec_enableWrite_taken (v := 0) htake hu (by decide) ref
    rw [writeEnable_zero (by rwa [heard_sup])] at hrun
    have hspec := disablePort_spec k (heard m s)
    generalize disablePort k (heard m s) = t at hrun hspec
    cases m <;> exact ⟨t, hrun, hspec⟩
  · obtain ⟨u, hstore, hus, hstate, hpolicy⟩ := store_disablePort k (heard m s)
    rw [heard_cam] at hstore hpolicy
    rw [← htodo] at hstore
    have hrec : ∀ i, u.record i = s.record i := fun i => by unfold State.record; rw [hus, heard_store]
    have hrec' : ∀ i, (disablePort k (heard m s)).record i = (todo.foldl (truncateAndComplete k) u).record i :=
      fun i => by unfold State.record; rw [hstore]
    obtain ⟨hage, hkept, hother⟩ := records_truncations (k := k) (u := u) (todo := todo)
      (by rw [hstate]; exact SupState.noConfusion) (by rw [hstate]; exact SupState.noConfusion) (by rwa [hpolicy]) hnodup
      (fun i hi => by rw [hrec]; exact hfill i hi) (by rw [hus, heard_store]; exact hwf)
    refine ⟨disablePort k (heard m s), ?_, ?_, fun i hi => ?_, fun i hi => ?_⟩
    · rw [exec_enableWrite_taken htake hu (by decide), writeEnable_zero (by rwa [heard_sup])]
    · rw [hstore, hage, hus, heard_store]
    · rw [hrec', ← hrec]
      exact hkept i hi
    · rw [hrec', ← hrec]
      exact hother i hi

end Sys2Proof.Machine
end

section
/-! PROOFS. The round mark and slew steps (R69 to R71, R74, R94 to R96). -/

namespace Sys2Proof.Machine

/-! ### Slew steps (R96) -/

theorem slewStepSize_le (c : Channel) :
    slewStepSize c ≤ if c.rate ≤ c.target then c.target - c.rate else c.rate - c.target := Nat.min_le_left _ _

/-- Settles O27. -/
theorem slewStepMovesRate : Obligations.SlewStepMovesRate := by
  intro s c h hh hdue
  have hle := slewStepSize_le h
  refine ⟨?_, fun hup => ?_, fun hdown => ?_, fun heq => ?_⟩
  · have hstep : h.stepIfDue = { h with
        rate := if h.rate < h.target then h.rate + slewStepSize h else h.rate - slewStepSize h
        stepDue := false } := by rw [← Channel.slewed_eq, slewed, if_pos hdue]
    rw [← hstep]
    subst hh
    rfl
  · rw [if_pos (Nat.le_of_lt hup)] at hle
    omega
  · rw [if_neg (Nat.not_le_of_lt hdown)] at hle
    omega
  · rw [if_pos (Nat.le_of_eq heq)] at hle
    omega

/-! ### The round mark -/

/-- A turn that changes nothing for any port, taken for all ports. -/
theorem eachPort_eq_self {f : Port → State → State} {s : State} (h : ∀ k, f k s = s) : eachPort f s = s := by
  unfold eachPort allPorts
  simp only [List.foldl, h]

theorem chan_eachChannel (f : Channel → Channel) (s : State) (c : Chan) : (eachChannel f s).chan c = f (s.chan c) := by
  simp [eachChannel, State.chan]

theorem eachChannel_eq_self {f : Channel → Channel} {s : State} (h : ∀ c, f (s.chan c) = s.chan c) :
    eachChannel f s = s := by
  have hchans : Vector.ofFn (fun c : Chan => f s.uplink.chans[c]) = s.uplink.chans := by
    ext1 i hi
    rw [Vector.getElem_ofFn]
    exact h ⟨i, hi⟩
  unfold eachChannel
  rw [hchans]

/-- With nothing due from earlier marks there is nothing to settle. -/
theorem settleDue_eq_self {s : State} (hport : ∀ k, (s.sup k).tripDue = false ∧ (s.sup k).calmCount < 256)
    (hchan : ∀ c, (s.chan c).stepDue = false) : settleDue s = s := by
  have htrip : ∀ k, tripIfDue k s = s := fun k => if_neg (by simp [(hport k).1])
  have hcalm : ∀ k, calmIfDue k s = s := fun k => if_neg fun h => Nat.not_le_of_lt (hport k).2 h.2
  have hstep : ∀ c, (s.chan c).stepIfDue = s.chan c := fun c => if_neg (by simp [hchan c])
  unfold settleDue
  rw [eachPort_eq_self fun k => by rw [htrip, hcalm], eachChannel_eq_self hstep]

/-- A round mark at a supervisor whose TRIP is not due, written out (R69, R70, R71, R74). -/
theorem Supervisor.mark_eq {u : Supervisor} (h : u.tripDue = false) (load : Nat) :
    u.mark load = { u with
      loadBytes := 0
      lastLoad := load
      blanking := if u.state = .disabled then u.blanking else u.blanking - 1
      overCount := if u.state ≠ .run then u.overCount
        else if decide (u.state = .run ∧ u.blanking = 0 ∧ u.threshold ≠ 0 ∧ u.threshold < load) then u.overCount + 1
        else 0
      tripDue := decide (u.state = .run ∧ u.blanking = 0 ∧ u.threshold ≠ 0 ∧ u.threshold < load) &&
        decide (deglitchRounds u.deglitch ≤ u.overCount + 1)
      calmCount := if u.state ≠ .throttled then u.calmCount
        else if u.threshold = 0 ∨ load ≤ u.threshold then u.calmCount + 1 else 0 } := by
  unfold Supervisor.mark
  cases hs : u.state
  case run =>
    by_cases hquiet : 0 < u.blanking ∨ u.threshold = 0 ∨ load ≤ u.threshold
    · have : ¬(u.blanking = 0 ∧ u.threshold ≠ 0 ∧ u.threshold < load) := by omega
      simp only [if_pos hquiet]
      simp [this]
    · have : u.blanking = 0 ∧ u.threshold ≠ 0 ∧ u.threshold < load := by omega
      simp only [if_neg hquiet]
      simp [this]
  all_goals simp [h]

theorem Channel.mark_eq {c : Channel} (h : c.stepDue = false) :
    c.mark = { c with
      credit := min (c.credit + c.rate) (16 * c.ceiling)
      countdown := if decide (c.slewCode ≠ 0 ∧ c.rate ≠ c.target) = false then c.countdown
        else if c.countdown ≤ 1 then slewPeriod c.slewCode else c.countdown - 1
      stepDue := decide (c.slewCode ≠ 0 ∧ c.rate ≠ c.target) && decide (c.countdown ≤ 1) } := by
  unfold Channel.mark Channel.countSlew Channel.refill Channel.cap
  dsimp only
  by_cases hs : c.slewCode = 0 ∨ c.rate = c.target
  · have : ¬(c.slewCode ≠ 0 ∧ c.rate ≠ c.target) := by tauto
    simp [if_pos hs, this, h, Config.slotPrice]
  · have : c.slewCode ≠ 0 ∧ c.rate ≠ c.target := by tauto
    rw [if_neg hs]
    by_cases hc : c.countdown ≤ 1 <;> simp [hc, this, h, Config.slotPrice]

theorem markSupervisor_eq {k : Port} {u : State} (h : (u.sup k).loadBytes / 512 ≤ 65535) :
    markSupervisor k u = u.modSup k fun v => v.mark ((u.sup k).loadBytes / 512) := by
  unfold markSupervisor closedLoad
  dsimp only
  rw [if_pos h, if_pos h]

/-- A round mark at every supervisor, for loads within the field. -/
theorem eachPort_markSupervisor {s : State} (h : ∀ k, (s.sup k).loadBytes / 512 ≤ 65535) :
    eachPort markSupervisor s = { s with sups := (eachPort markSupervisor s).sups } ∧
      ∀ k, (eachPort markSupervisor s).sup k = (s.sup k).mark ((s.sup k).loadBytes / 512) := by
  have hturns := eachPort_locally (f := markSupervisor) (seen := State.sup)
    (keeps := fun u => u = { s with sups := u.sups } ∧ ∀ k, (u.sup k).loadBytes / 512 ≤ 65535)
    (turn := fun _ v => v.mark (v.loadBytes / 512)) (fun k u ⟨hu, hload⟩ => ?_) s ⟨rfl, h⟩
  · exact ⟨hturns.1.1, hturns.2⟩
  · rw [markSupervisor_eq (hload k)]
    refine ⟨⟨?_, fun j => ?_⟩, State.sup_modSup .., fun j hj => State.sup_modSup_ne _ _ hj⟩
    · rw [hu]; rfl
    · by_cases hj : j = k
      · subst hj
        rw [State.sup_modSup]
        have hzero : ((u.sup j).mark ((u.sup j).loadBytes / 512)).loadBytes = 0 := by
          unfold Supervisor.mark
          cases (u.sup j).state
          case run => dsimp only; split <;> rfl
          all_goals rfl
        rw [hzero]
        decide
      · rw [State.sup_modSup_ne _ _ hj]
        exact hload j

/-- Settles O26: nothing is to settle, and then every supervisor and every channel takes its own mark. -/
theorem roundMarkClosesRound : Obligations.RoundMarkClosesRound := by
  intro s hport hchan
  have hsettled : settleDue s = s := settleDue_eq_self (fun k => ⟨(hport k).1, (hport k).2.1⟩) hchan
  obtain ⟨hframe, hsup⟩ := eachPort_markSupervisor (s := s) fun k => (hport k).2.2
  have hrun : exec .roundMark s = .next (markRound s) := by
    change Host.Outcome.next (markRound (settleDue s)) = _
    rw [hsettled]
  refine ⟨markRound s, hrun, fun k => ?_, fun c => ?_, ?_⟩
  · exact (hsup k).trans (Supervisor.mark_eq (hport k).1 _)
  · refine (chan_eachChannel ..).trans ?_
    rw [hframe]
    exact Channel.mark_eq (hchan c)
  · unfold markRound
    rw [hframe]
    rfl

end Sys2Proof.Machine
end

section
/-! PROOFS. TRIP, the return to calm, the throttle timeout, CLEAR_FAULT and the dark-port detector (R72 to R78, R83 to R85). -/

namespace Sys2Proof.Machine

/-! ### TRIP (R72) -/

section

variable {s : State} {k : Port}

theorem exec_trip_of_due (h : (s.sup k).state = .run) (hdue : (s.sup k).tripDue = true) :
    exec (.trip k) s = .next (takeTrip k s) := congrArg Host.Outcome.next (if_pos ⟨h, hdue⟩)

theorem takeTrip_of_report (h : (s.sup k).tripMode = .report) :
    takeTrip k s = (s.raisePort k .trip).modSup k fun u => { u with overCount := 0, tripDue := false } := by
  rw [takeTrip_eq, h]
  rfl

/-- TRIPPED entry sets the over-count and the due TRIP itself. -/
theorem takeTrip_of_latch (h : (s.sup k).tripMode = .latch) :
    takeTrip k s = enterTripped k (s.raisePort k .trip) := by
  rw [takeTrip_eq, h]
  simp only [enterTripped, tripFlagged, State.modSup_modSup]

theorem takeTrip_of_throttle {exit : ThrottleExit} (h : (s.sup k).tripMode = match exit with
      | .none => .throttle | .toTripped => .throttleOff | .toUnguarded => .throttleRelease) :
    takeTrip k s = (s.raisePort k .trip).modSup k fun u =>
      { u with
        state := .throttled, overCount := 0, tripDue := false, calmCount := 0, decimationCount := 0
        throttleExit := exit
        throttleTimer := if exit = .none then none else some (throttleTime (s.sup k).throttleTimeout) } := by
  have hthrottled : takeTrip k s = enterThrottled k exit (tripFlagged k s) := by
    rw [takeTrip_eq, h]
    cases exit <;> rfl
  rw [hthrottled, enterThrottled, tripFlagged, State.modSup_modSup]
  exact State.modSup_congr _ _ rfl

/-! ### Calm and the throttle timeout (R74 to R77) -/

theorem exec_throttleTimeout_of_due (h : (s.sup k).state = .throttled) (ht : (s.sup k).throttleTimer = some 0)
    (hc : (s.sup k).calmCount < 256) : exec (.throttleTimeout k) s =
      .next (match (s.sup k).throttleExit with
        | .toTripped => enterTripped k (s.raisePort k .throttleTimeout)
        | .toUnguarded => enterUnguarded k (s.raisePort k .throttleTimeout)
        | .none => s) :=
  congrArg Host.Outcome.next (if_pos ⟨h, by simp [ranOut, ht], hc⟩)

end

/-- Settles O28: the TRIP by its mode, then the two ways out of THROTTLED; TRIPPED entry is `enterTripped_spec`. -/
theorem tripCalmAndTimeoutTransitions : Obligations.TripCalmAndTimeoutTransitions := by
  refine ⟨fun s k hs hdue => ?_, fun s k hs hc => ?_, fun s k hs h => ?_, fun s k hs ht hc => ⟨fun he => ?_, fun he => ?_⟩⟩
  · rw [exec_trip_of_due hs hdue]
    refine ⟨fun hm => ?_, fun hm => ?_, fun hm => ?_, fun hm => ?_, fun hm => ?_⟩
    · rw [takeTrip_of_report hm]
    · rw [takeTrip_of_throttle (exit := .none) hm]; rfl
    · rw [takeTrip_of_throttle (exit := .toTripped) hm]; rfl
    · rw [takeTrip_of_throttle (exit := .toUnguarded) hm]; rfl
    · exact ⟨_, congrArg Host.Outcome.next (takeTrip_of_latch hm), enterTripped_spec ..⟩
  · exact congrArg Host.Outcome.next (if_pos ⟨hs, Nat.le_of_eq hc.symm⟩)
  · refine congrArg Host.Outcome.next (if_neg fun ⟨_, hran, hcalm⟩ => ?_)
    rcases h with h | h
    · exact Nat.not_le_of_lt hcalm h
    · exact h (by simpa [ranOut] using hran)
  · rw [exec_throttleTimeout_of_due hs ht hc, he]; rfl
  · rw [exec_throttleTimeout_of_due hs ht hc, he]
    exact ⟨_, rfl, enterTripped_spec ..⟩

/-! ### CLEAR_FAULT (R78) -/

/-- CLEAR_FAULT's effect on the port's supervisor, blanking included. -/
theorem clearFault_eq_nextVisit {k : Port} {s u : State} (hu : u = s.modSup k (fun p =>
      { p with
        state := if p.state = .tripped ∨ p.state = .unguarded then .run else p.state
        overCount := if p.state = .tripped ∨ p.state = .unguarded ∨ p.state = .run then 0 else p.overCount
        tripDue := if p.state = .tripped ∨ p.state = .unguarded ∨ p.state = .run then false else p.tripDue
        throttleTimer := if p.state = .throttled then p.throttleTimer.map fun _ => throttleTime p.throttleTimeout
          else p.throttleTimer
        blanking := if p.state = .disabled then p.blanking else 32 })) :
    clearFault k s = { u with dark := nextVisit allPorts u } := by
  have hport : startBlanking k (s.modSup k Supervisor.faultCleared) = u := by
    rw [hu, startBlanking, State.modSup_modSup]
    refine State.modSup_congr _ _ ?_
    generalize s.sup k = p
    rcases p with ⟨state⟩
    cases state <;> rfl
  rw [clearFault_eq, hport, startDarkPass, visitPorts_eq]

/-- Settles O29. -/
theorem clearFaultBySupervisionState : Obligations.ClearFaultBySupervisionState := by
  intro s m ref port htake
  have hrun : ∀ {t : State} {r : Reply}, handleClearFault port (heard m s) = (t, r) →
      exec (.clearFault m ref port) s = .next (answered m (answerTo ref 0x11 r) t) := fun hr =>
    congrArg Host.Outcome.next (arrive_of_handle (req := .clearFault port) htake ref rfl hr)
  refine ⟨fun hp => ?_, fun k u hp hu => ?_⟩
  · have : handleClearFault port (heard m s) = (heard m s, refuse .notFound) := by
      rw [handleClearFault, portOfByte_of_le hp]
    rw [hrun this]
    rfl
  · have : handleClearFault port (heard m s) = (clearFault k (heard m s), doneWith []) := by
      rw [handleClearFault, portOfByte_of_eq hp]
    rw [hrun this, clearFault_eq_nextVisit hu]
    rfl

/-! ### The dark-port detector (R83 to R85) -/

/-- Settles O30: a visit is `nextVisit`, whatever begins it. -/
theorem darkDetectorVisits : Obligations.DarkDetectorVisits := by
  intro s
  refine ⟨fun h => ?_, fun hp ht => ?_, fun m ref v u htake hu h => ?_⟩
  · refine congrArg Host.Outcome.next (if_neg fun ⟨hp, ht⟩ => ?_)
    rcases h with h | h
    · exact h hp
    · exact h (by simpa [ranOut] using ht)
  · have hrun : exec .darkTestExpiry s =
        .next (nextDarkVisit s.dark.current (s.raisePort s.dark.current .dark)) :=
      congrArg Host.Outcome.next (if_pos ⟨hp, by simp [ranOut, ht]⟩)
    rw [hrun, nextDarkVisit, visitPorts_eq]
    rfl
  · have hrun : exec (.darkMaskWrite m ref v) s = .next (answered m (doneAnswer 0x02 ref (be32 (v &&& 0xFF)))
        (writeSetting .darkMask v (heard m s))) :=
      congrArg Host.Outcome.next (arrive_write_taken (l := 12) (record := 0x0C) (field := 0x02) (x := .darkMask) htake rfl
        hu (by decide) rfl rfl ref)
    have hwrite : writeSetting .darkMask v (heard m s) = startDarkPass u := by
      rw [h]
      simp only [writeSetting, heard_dark]
    rw [hrun, hwrite, startDarkPass, visitPorts_eq]

end Sys2Proof.Machine
end

section
/-! PROOFS. Budget writes: targets, ceilings and slew codes (R70, R89, R90, R92, R93, R95). -/

namespace Sys2Proof.Machine

/-! ### Target writes (R90) -/

theorem Channel.writeTarget_eq (c : Channel) (t : Nat) :
    c.writeTarget t =
      if t = 0 then { slewed c with target := 0, rate := 0, credit := 0 }
      else if (slewed c).slewCode = 0 then { slewed c with target := t, rate := t }
      else if (slewed c).rate = 0 then
        { slewed c with target := t, rate := min (slewed c).startRate t, countdown := slewPeriod (slewed c).slewCode }
      else { slewed c with target := t } := by
  rw [Channel.slewed_eq]
  rfl

theorem writeTarget_recall (v : Word) (s : State) :
    writeTarget 8 v s = s.modChan 8 fun h => h.writeTarget (min v.toNat (gradeMaximum s.link.grade)) := rfl

theorem writeTarget_chanOf (k : Port) (v : Word) (s : State) :
    writeTarget (chanOf k) v s =
      (s.modChan (chanOf k) fun h => h.writeTarget (min v.toNat (gradeMaximum s.link.grade))).modSup k fun p =>
        { p with blanking := if p.state = .disabled then p.blanking else 32 } := by
  unfold writeTarget startBlanking
  rw [portOf_chanOf]
  refine State.modSup_congr _ _ ?_
  split <;> rfl

/-- Settles O31: PORT_TRIPPED bars the write; one that is taken writes the channel by `Channel.writeTarget_eq`. -/
theorem targetWriteByCase : Obligations.TargetWriteByCase := by
  intro s m ref c v h t htake hu hh ht
  refine ⟨fun k hc htripped => ?_, fun hfree => ?_⟩
  · have hbar : targetBarred (.chan c .target) (heard m s) = true := by
      rw [targetBarred_heard]
      exact (targetBarred_iff _ _).mpr ⟨k, by rw [hc], htripped⟩
    refine congrArg Host.Outcome.next ?_
    rw [arrive_write_of_unbarred ref v htake (toNat_byteOf_chan c) hu (resolveField_target c),
      valueRefused_of_targetBarred rfl hbar]
  · have hbar : targetBarred (.chan c .target) s = false := by
      refine Bool.eq_false_iff.mpr fun hbar => ?_
      obtain ⟨k, hk, htripped⟩ := (targetBarred_iff _ _).mp hbar
      exact hfree k (Setting.chan.inj hk).1 htripped
    have hrun : exec (.targetWrite m ref c v) s =
        .next (answered m (doneAnswer 0x02 ref (be32 (wordOf t))) (writeTarget c v (heard m s))) :=
      ht ▸ congrArg Host.Outcome.next
        (arrive_write_taken htake (toNat_byteOf_chan c) hu (resolveField_target c) rfl hbar ref)
    have hwrite := Channel.writeTarget_eq (s.chan c) t
    rw [← hh] at hwrite
    have hchan : (fun x : Channel => x.writeTarget (min v.toNat (gradeMaximum (heard m s).link.grade)))
        ((heard m s).chan c) = (s.chan c).writeTarget t := by
      dsimp only
      rw [heard_chan, heard_link, ht]
    refine ⟨(s.chan c).writeTarget t, _, hrun, fun h0 => ?_, fun h0 hcode => ?_, fun h0 hcode hrate => ?_,
      fun h0 hcode hrate => ?_, fun hc => ?_, fun k hc => ?_⟩
    · rw [hwrite, if_pos h0]
    · rw [hwrite, if_neg h0, if_pos hcode]
    · rw [hwrite, if_neg h0, if_neg hcode, if_pos hrate]
    · rw [hwrite, if_neg h0, if_neg hcode, if_neg hrate]
    · subst hc
      exact (writeTarget_recall ..).trans (State.modChan_congr _ _ hchan)
    · subst hc
      rw [writeTarget_chanOf, State.modChan_congr _ _ (g := fun _ => (s.chan (chanOf k)).writeTarget t) hchan]

/-! ### Ceilings and slew codes (R92, R93) -/

theorem Channel.writeSlewCode_eq (c : Channel) (code : Fin 8) :
    c.writeSlewCode code =
      if code = 0 then { slewed c with slewCode := code, rate := (slewed c).target, countdown := 0 }
      else { slewed c with slewCode := code, countdown := slewPeriod code } := by
  rw [Channel.slewed_eq]
  rfl

theorem target_slewed (c : Channel) : (slewed c).target = c.target := by
  unfold slewed
  split <;> rfl

theorem exec_slewCodeWrite_taken {m : Master} {s : State} {c : Chan} {v : Word} (htake : takable m s)
    (hu : unbarred m (chanRecord c) s) {code : Fin 8} (hv : v.toNat = code.val) (ref : Half) :
    exec (.slewCodeWrite m ref c v) s = .next (answered m (doneAnswer 0x02 ref (be32 v))
      ((heard m s).modChan c fun h => h.writeSlewCode code)) := by
  have hcode : position 8 (by decide) v = code := Fin.ext (by simp [position, hv, Nat.mod_eq_of_lt code.isLt])
  rw [← hcode]
  exact congrArg Host.Outcome.next (arrive_write_taken htake (toNat_byteOf_chan c) hu (resolveField_slewCode c)
    (badValue_eq_false (n := 8) rfl (hv ▸ code.isLt)) rfl ref)

/-- Settles O32. -/
theorem ceilingAndSlewCodeWrites : Obligations.CeilingAndSlewCodeWrites := by
  refine ⟨fun s m ref c v n htake hu hn => ?_, fun s m ref c v htake hu => ⟨fun hv => ?_, fun hv => ?_,
    fun code hv hcode => ?_⟩⟩
  · have hn' : max 1 (min v.toNat 4095) = n := by
      rw [hn]
      split <;> [skip; split] <;> omega
    have hrun : exec (.ceilingWrite m ref c v) s = .next (answered m
        (doneAnswer 0x02 ref (be32 (wordOf (max 1 (min v.toNat 4095)))))
        ((heard m s).modChan c fun h => h.writeCeiling (max 1 (min v.toNat 4095)))) :=
      congrArg Host.Outcome.next (arrive_write_taken htake (toNat_byteOf_chan c) hu (resolveField_ceiling c) rfl rfl ref)
    have hcut : ((heard m s).chan c).writeCeiling n = { (heard m s).chan c with
        ceiling := n
        credit := if 16 * n < ((heard m s).chan c).credit then 16 * n else ((heard m s).chan c).credit } := by
      have : min ((heard m s).chan c).credit (16 * n) =
          if 16 * n < ((heard m s).chan c).credit then 16 * n else ((heard m s).chan c).credit := by split <;> omega
      rw [← this]
      rfl
    rw [hrun, hn']
    exact congrArg (fun u => Host.Outcome.next (answered m (doneAnswer 0x02 ref (be32 (wordOf n))) u))
      (State.modChan_congr _ _ hcut)
  · exact congrArg Host.Outcome.next (arrive_write_badValue htake (toNat_byteOf_chan c) hu (resolveField_slewCode c)
      (badValue_eq_true (n := 8) rfl hv) ref)
  · subst hv
    rw [exec_slewCodeWrite_taken (v := 0) (code := 0) htake hu rfl]
    refine congrArg (fun u => Host.Outcome.next (answered m (doneAnswer 0x02 ref (be32 0)) u)) ?_
    refine State.modChan_congr _ _ ?_
    rw [Channel.writeSlewCode_eq, if_pos rfl, target_slewed]
  · rw [exec_slewCodeWrite_taken htake hu hv]
    refine congrArg (fun u => Host.Outcome.next (answered m (doneAnswer 0x02 ref (be32 v)) u)) ?_
    refine State.modChan_congr _ _ ?_
    rw [Channel.writeSlewCode_eq, if_neg hcode, slewPeriod, if_neg hcode]

end Sys2Proof.Machine
end

section
/-! PROOFS. WRITE in its order of tests, UNLOCK and lock expiries, mask writes (R146, R147, R151, R153, R154, R161). -/

namespace Sys2Proof.Machine

/-! ### WRITE, in the order of R146 -/

section

variable {m : Master} {record field : Byte} {v : Word} {s : State} {x : Setting}

theorem handleWrite_of_error {r : Reason} (hf : resolveField record field = .error r) :
    handleWrite m record field v s = (s, refuse r) := by simp only [handleWrite, hf]

theorem handleWrite_of_wrongMask {f : FieldRef} (hf : resolveField record field = .ok f)
    (hw : wrongMask m record = true) : handleWrite m record field v s = (s, refuse .wrongMaster) := by
  simp only [handleWrite, hf, hw, if_true]

theorem handleWrite_of_status {x : StatusField} (hf : resolveField record field = .ok (.status x))
    (hw : ¬wrongMask m record = true) : handleWrite m record field v s = (s, refuse .readOnly) := by
  simp only [handleWrite, hf, if_neg hw]

theorem handleWrite_of_locked (hf : resolveField record field = .ok (.setting x)) (hw : ¬wrongMask m record = true)
    (hl : lockedByOther m record s = true) : handleWrite m record field v s = (s, retry) := by
  simp only [handleWrite, hf, if_neg hw, if_pos hl]

theorem handleWrite_of_refused {r : Reason} (hf : resolveField record field = .ok (.setting x))
    (hw : ¬wrongMask m record = true) (hl : ¬lockedByOther m record s = true) (hv : valueRefused x v s = some r) :
    handleWrite m record field v s = (s, refuse r) := by
  simp only [handleWrite, hf, if_neg hw, if_neg hl, hv]

end

theorem exec_write_of_takable {m : Master} {s t : State} {r : Reply} {record field : Byte} {v : Word}
    (h : takable m s) (ref : Half) (hr : handleWrite m record field v (heard m s) = (t, r)) :
    exec (.write m ref record field v) s = .next (answered m (answerTo ref 0x02 r) t) :=
  congrArg Host.Outcome.next (arrive_of_handle (req := .write record field v) h ref rfl hr)

/-- Settles O48: each step of R146 by the lemma about `handleWrite` that names it; a request finds the locks and the
supervisors as they stood before it was heard. -/
theorem writeTestedInOrder : Obligations.WriteTestedInOrder := by
  intro s m ref record field v htake
  dsimp only
  have hlock : lockedByOther m record (heard m s) = true ↔
      ∃ (l : Fin 13) (e : Lock), record.toNat = l.val ∧ s.lock l = some e ∧ e.holder ≠ m := by
    rw [lockedByOther_iff]
    simp only [heard_lock]
  have hbarred : ∀ x, targetBarred x (heard m s) = true ↔
      ∃ k : Port, x = .chan (chanOf k) .target ∧ (s.sup k).state = .tripped := fun x => by
    rw [targetBarred_heard, targetBarred_iff]
  rw [← wrongMask_iff, ← hlock]
  refine ⟨fun hr => ?noRecord, fun hr hf => ?noField, fun f hf hw => ?wrongMaster, fun x hf hw => ?readOnly,
    fun x hf hw => ⟨fun hl => ?retry, fun hl hv => ?badValue, fun hl hv hb => ?portTripped, fun hl hv hb => ?taken⟩⟩
  case noRecord => exact exec_write_of_takable htake ref (handleWrite_of_error (resolveField_of_le hr))
  case noField => exact exec_write_of_takable htake ref (handleWrite_of_error (resolveField_of_lt hr hf))
  case wrongMaster => exact exec_write_of_takable htake ref (handleWrite_of_wrongMask hf hw)
  case readOnly => exact exec_write_of_takable htake ref (handleWrite_of_status hf hw)
  case retry => exact exec_write_of_takable htake ref (handleWrite_of_locked hf hw hl)
  case badValue =>
    exact exec_write_of_takable htake ref (handleWrite_of_refused hf hw hl (valueRefused_of_badValue hv _))
  case portTripped =>
    exact exec_write_of_takable htake ref
      (handleWrite_of_refused hf hw hl (valueRefused_of_targetBarred hv ((hbarred x).mpr hb)))
  case taken =>
    have hclear : targetBarred x (heard m s) = false := Bool.eq_false_iff.mpr (mt (hbarred x).mp hb)
    have hr := handleWrite_setting hf (Bool.eq_false_iff.mpr hw) (Bool.eq_false_iff.mpr hl)
      (valueRefused_of_unbarred hv hclear)
    rw [readSetting_writeSetting hv] at hr
    exact exec_write_of_takable htake ref hr

/-! ### UNLOCK and lock expiry (R153, R154) -/

section

variable {m : Master} {record : Byte} {l : Fin 13} {s : State}

theorem handleUnlock_of_le (h : 13 ≤ record.toNat) : handleUnlock m record s = (s, refuse .noSuchRecord) := by
  simp only [handleUnlock, lockableRecord_of_le h]

theorem handleUnlock_of_held (hl : record.toNat = l.val) (h : lockHeldBy m l s = true) :
    handleUnlock m record s = (s.setLock l none, doneWith []) := by
  simp only [handleUnlock, lockableRecord_of_eq hl, if_pos h]

theorem handleUnlock_of_not_held (hl : record.toNat = l.val) (h : ¬lockHeldBy m l s = true) :
    handleUnlock m record s = (s, doneWith []) := by
  simp only [handleUnlock, lockableRecord_of_eq hl, if_neg h]

theorem exec_unlock_of_takable {t : State} {r : Reply} (h : takable m s) (ref : Half)
    (hr : handleUnlock m record (heard m s) = (t, r)) :
    exec (.unlock m ref record) s = .next (answered m (answerTo ref 0x05 r) t) :=
  congrArg Host.Outcome.next (arrive_of_handle (req := .unlock record) h ref rfl hr)

theorem exec_lockExpiry (l : Fin 13) (s : State) : exec (.lockExpiry l) s =
    .next (if ranOut ((s.lock l).map Lock.remaining) then s.setLock l none else s) := rfl

end

/-- Settles O52. -/
theorem unlockAndLockExpiry : Obligations.UnlockAndLockExpiry := by
  refine ⟨fun s m ref record htake => ⟨fun hr => ?_, fun l hl => ?_⟩,
    fun s l => ⟨fun e he h0 => ?_, fun e he h0 => ?_, fun he => ?_⟩⟩
  · exact exec_unlock_of_takable htake ref (handleUnlock_of_le hr)
  · have hheld : lockHeldBy m l (heard m s) = true ↔ ∃ e, s.lock l = some e ∧ e.holder = m := by
      rw [lockHeldBy_iff, heard_lock]
    refine ⟨fun h => ?_, fun h => ?_⟩
    · exact exec_unlock_of_takable htake ref (handleUnlock_of_held hl (hheld.mpr h))
    · refine exec_unlock_of_takable htake ref (handleUnlock_of_not_held hl (mt hheld.mp ?_))
      rintro ⟨e, he, hm⟩
      rcases h with h | ⟨e', he', hm'⟩
      · rw [h] at he; cases he
      · rw [he'] at he; cases he; exact hm' hm
  · refine ⟨s.setLock l none, ?_, State.lock_setLock .., fun j hj => State.lock_setLock_ne _ _ hj, rfl⟩
    rw [exec_lockExpiry, if_pos (by simp [he, h0, ranOut])]
  · rw [exec_lockExpiry, if_neg (by simp [he, h0, ranOut])]
  · rw [exec_lockExpiry, if_neg (by simp [he, ranOut])]

/-! ### Mask writes (R147, R161) -/

/-- The global flags a mask write stores: flag `g` stands at bit `(g + 8) mod 16` of the field (R172). -/
theorem FlagSet.has_writeMask_global (f : FlagSet) (field : Fin 9) (v : Word) (g : GlobalEvent) :
    (f.writeMask field v).has (.global g) =
      if field = 0 then v.getLsbD ((g.bit + 8) % 16) else f.has (.global g) := by
  by_cases hf : field = 0
  · subst hf
    rw [if_pos rfl]
    cases g <;> simp [FlagSet.writeMask, FlagSet.has, GlobalEvent.bit, getElem_bytes]
  · have : field.val ≠ 0 := fun h => hf (Fin.ext h)
    simp only [FlagSet.writeMask, dif_neg this, if_neg hf]
    rfl

theorem FlagSet.has_writeMask_port (f : FlagSet) (field : Fin 9) (v : Word) (p : PortEvent) (k : Port) :
    (f.writeMask field v).has (.port p k) =
      if field.val = k.val + 1 then v.getLsbD p.bit else f.has (.port p k) := by
  have hp := p.bit_lt
  by_cases hf : field.val = 0
  · have : ¬field.val = k.val + 1 := by omega
    simp only [FlagSet.writeMask, dif_pos hf, if_neg this]
    rfl
  · by_cases hk : field.val = k.val + 1
    · simp [FlagSet.writeMask, hk, FlagSet.has, hp]
    · have hk' : field.val - 1 ≠ k.val := by omega
      simp only [FlagSet.writeMask, dif_neg hf, if_neg hk, FlagSet.has]
      exact congrArg (fun b => BitVec.getLsbD b p.bit) (Vector.getElem_set_ne _ _ hk')

/-- Settles O55: a mask write is a WRITE of the field it names, barred to the other master alone. -/
theorem maskWriteByOwnMaster : Obligations.MaskWriteByOwnMaster := by
  intro s m ref f v htake
  refine ⟨fun other ho => ?_, (maskOf s m).writeMask f v, writeMask m f v (heard m s), ?_, ?_, fun g => ?_, fun p k => ?_, ?_⟩
  · have hw : wrongMask m (maskRecordNumber other) = true := by
      rw [wrongMask_iff]
      cases m <;> cases other <;> simp_all [maskRecordNumber]
    exact exec_write_of_takable (record := maskRecordNumber other) htake ref
      (handleWrite_of_wrongMask (resolveField_mask other f) hw)
  · have hw : wrongMask m (maskRecordNumber m) = false := by cases m <;> rfl
    have hl : lockedByOther m (maskRecordNumber m) (heard m s) = false := by cases m <;> rfl
    have hr := handleWrite_setting (v := v) (resolveField_mask m f) hw hl
      (valueRefused_of_unbarred (x := .mask m f) rfl rfl)
    rw [readSetting_writeSetting rfl] at hr
    exact exec_write_of_takable htake ref hr
  · cases m <;> simp [writeMask, maskOf]
  · exact FlagSet.has_writeMask_global ..
  · exact FlagSet.has_writeMask_port ..
  · exact State.attnLow_iff _

end Sys2Proof.Machine
end

section
/-! PROOFS. Requests by their paths: office requests, unknown kinds, line requests and transfers, return-lane cells, receipts
(R114 to R116, R124, R135, R138 to R142). -/

namespace Sys2Proof.Machine

/-! ### Office requests (R127, R135, R140) -/

/-- Every request row that forms an answer is the arrival of its request. -/
theorem exec_of_answeredSender {c : Instr} {m : Master} (h : answeredSender c = some m) (s : State) :
    ∃ ref req, exec c s = .next (arrive m ref req s) := by
  cases c <;> cases h <;> exact ⟨_, _, rfl⟩

theorem arrive_office_of_ne {s : State} (h : s.link.state ≠ .up) (ref : Half) (req : Request) :
    arrive .office ref req s = s := if_neg h

theorem officeRequestCell_of_full {s : State} (h : 8 ≤ s.reqs.officeAnswers.length) (req : Option (Half × Request)) :
    officeRequestCell req s = s.raise .officeReqDropped := if_pos h

/-- Settles O46. -/
theorem officeRequestsAndUnknownKinds : Obligations.OfficeRequestsAndUnknownKinds := by
  refine ⟨fun s c hc => ?_, fun s m ref kind htake => ?_⟩
  · obtain ⟨ref, req, hrun⟩ := exec_of_answeredSender hc s
    rw [hrun]
    refine ⟨fun hdown => by rw [arrive_office_of_ne hdown], fun hup hfull => congrArg Host.Outcome.next ?_⟩
    exact (if_pos hup).trans (officeRequestCell_of_full hfull _)
  · exact congrArg Host.Outcome.next (arrive_of_handle (req := .unknown kind) htake ref rfl rfl)

/-! ### Receipts (R114 to R116) -/

theorem takeReceipt_of_noPort {port : Byte} (h : 8 ≤ port.toNat) (mark : Half) (s : State) :
    takeReceipt port mark s = s := by simp only [takeReceipt, portOfByte_of_le h]

section

variable {s : State} {port : Byte} {k : Port} {mark m : Half}

theorem behind_iff (b a : Half) : behind b a = true ↔ 32768 ≤ (b - a).toNat := decide_eq_true_iff

theorem coveredBy_iff (n mark : Half) : coveredBy n mark = true ↔ (mark - n).toNat < 32768 := decide_eq_true_iff

theorem clampMark_eq (last mark : Half) :
    clampMark last mark = if 32768 ≤ (last - mark).toNat then last else mark :=
  if_congr (behind_iff ..) rfl rfl

theorem takeReceipt_of_behind (hp : port.toNat = k.val) (hm : clampMark (s.cam k).lastIssued mark = m)
    (hb : 32768 ≤ (m - s.recalls.marks[k]).toNat) : takeReceipt port mark s = s := by
  simp only [takeReceipt, portOfByte_of_eq hp, hm]
  exact if_pos ((behind_iff ..).mpr hb)

theorem takeReceipt_of_ahead (hp : port.toNat = k.val) (hm : clampMark (s.cam k).lastIssued mark = m)
    (hb : (m - s.recalls.marks[k]).toNat < 32768) : takeReceipt port mark s =
      applyReceipt k m { s with recalls := { s.recalls with marks := s.recalls.marks.set k m } } := by
  simp only [takeReceipt, portOfByte_of_eq hp, hm]
  exact if_neg fun h => Nat.not_le_of_lt hb ((behind_iff ..).mp h)

theorem record_applyReceipt (hwf : Table.wf FrameRecord.blank s.store.catalogue) (n : Nat) :
    (applyReceipt k m s).record n =
      if (s.record n).port = k ∧ (s.record n).state = .sent ∧ (m - (s.record n).frame).toNat < 32768 then
        { s.record n with state := .delivered }
      else s.record n := by
  have hblank : FrameRecord.receipted k m .blank = .blank := if_neg fun h => RecState.noConfusion h.2.1
  refine (Table.get_mapValues hwf _ hblank n).trans (if_congr ?_ rfl rfl)
  rw [coveredBy_iff]
  rfl

end

theorem exec_receipt_office (ref : Half) (port : Byte) (mark : Half) (s : State) :
    exec (.receipt .office ref port mark) s =
      .next (if s.link.state = .up then takeReceipt port mark s else s) := rfl

/-- Settles O38. -/
theorem receiptClampedAndApplied : Obligations.ReceiptClampedAndApplied := by
  intro s ref port mark hwf
  refine ⟨rfl, fun hdown => ?_, fun hup hp => ?_, fun k last m hup hp hlast hm => ?_⟩
  · rw [exec_receipt_office, if_neg hdown]
  · rw [exec_receipt_office, if_pos hup, takeReceipt_of_noPort hp]
  · have hclamp : clampMark (s.cam k).lastIssued mark = m := by
      rw [clampMark_eq, hm, hlast]
      rfl
    rw [exec_receipt_office, if_pos hup]
    refine ⟨fun hb => by rw [takeReceipt_of_behind hp hclamp hb], fun hb => ?_⟩
    rw [takeReceipt_of_ahead hp hclamp hb]
    exact ⟨_, rfl, rfl, fun n => record_applyReceipt
      (s := { s with recalls := { s.recalls with marks := s.recalls.marks.set k m } }) hwf n, rfl⟩

/-! ### The line request port (R138, R139) -/

theorem placeLineAnswer_eq (a : Answer) (s : State) :
    placeLineAnswer a s = { s with
      reqs := { s.reqs with
        lineBuffer := some a, transfer := s.reqs.transfer.map fun t => { t with inBuffer := false } }
      events := if s.reqs.lineBuffer.isSome then s.events.raise (.global .answerLost) else s.events } := by
  unfold placeLineAnswer
  cases s.reqs.lineBuffer <;> rfl

theorem transferReleased_of_transfer {s : State} {tr : Transfer} (h : s.reqs.transfer = some tr) (count : Nat) :
    transferReleased count s = endTransfer tr count s := by
  unfold transferReleased
  simp [h]

theorem exec_lineTransfer_of_none {mosi : List Byte} (h : decodeRequest mosi = none) (s : State) :
    exec (.lineTransfer mosi) s = .next (transferReleased mosi.length s) := by
  change Host.Outcome.next (lineTransfer mosi s) = _
  rw [lineTransfer_eq, h]

theorem exec_lineTransfer_of_some {mosi : List Byte} {ref : Half} {req : Request}
    (h : decodeRequest mosi = some (ref, req)) (s : State) :
    exec (.lineTransfer mosi) s = .next (takeLineRequest ref req (transferReleased mosi.length s)) := by
  change Host.Outcome.next (lineTransfer mosi s) = _
  rw [lineTransfer_eq, h]

/-- Settles O45. -/
theorem lineRequestsAndTransfers : Obligations.LineRequestsAndTransfers := by
  refine ⟨fun s a => ⟨heard_line s, fun hb => ?_, fun hb => ?_, ?_, ?_⟩,
    fun s => ⟨fun ht => ?_, fun mosi tr e htr he => ⟨fun hd => ?_, fun ref req hd => ?_⟩⟩⟩
  · refine (congrArg State.events (placeLineAnswer_eq a s)).trans ?_
    rw [hb]
    rfl
  · refine (congrArg State.events (placeLineAnswer_eq a s)).trans (if_pos ?_)
    rwa [Option.isSome_iff_ne_none]
  · exact congrArg (fun t : State => t.reqs.lineBuffer) (placeLineAnswer_eq a s)
  · unfold answered
    dsimp only
    rw [placeLineAnswer_eq]
  · refine ⟨_, congrArg Host.Outcome.next (if_pos ht), rfl, fun a ha => ?_, fun hb => ?_⟩
    · dsimp only; rw [ha]; rfl
    · dsimp only; rw [hb]; rfl
  · rw [exec_lineTransfer_of_none hd, transferReleased_of_transfer htr, he]
    rfl
  · rw [exec_lineTransfer_of_some hd, transferReleased_of_transfer htr, he]
    rfl

end Sys2Proof.Machine
end

section
/-! PROOFS. Return-lane cells, control slots, light, recovery and restarting, and the ends of windows (R123 to R135). -/

namespace Sys2Proof.Machine

/-! ### Return-lane cells (R124, R135) -/

theorem returnKind_eq_request_iff (cell : List Byte) : returnKind cell = .request ↔ byteAt cell 0 = 0x11 := by
  rw [← BitVec.toNat_inj]
  unfold returnKind
  split <;> simp_all

theorem returnKind_eq_receipt_iff (cell : List Byte) : returnKind cell = .receipt ↔ byteAt cell 0 = 0x12 := by
  rw [← BitVec.toNat_inj]
  unfold returnKind
  split <;> simp_all

/-- The device once a window has tallied a valid cell. -/
def State.tallied (s : State) (w : Window) : State :=
  { s with link := { s.link with window := some { w with valid := w.valid + 1 } } }

section

variable {s : State} {cell : List Byte} {w : Window}

theorem returnCell_of_no_window (h : s.link.window = none) : returnCell cell s = s := by
  simp only [returnCell, h]

theorem returnCell_of_invalid (h : s.link.window = some w) (hc : headerCheck cell ≠ be16At cell 14) :
    returnCell cell s = { s with link := { s.link with window := some { w with failures := w.failures + 1 } } } := by
  have : headerValid cell = false := decide_eq_false hc
  simp only [returnCell, h, if_pos this]
  rfl

theorem returnCell_of_valid (h : s.link.window = some w) (hc : headerCheck cell = be16At cell 14) :
    returnCell cell s =
      if s.link.state = .up then
        match returnKind cell with
        | .request => officeRequestCell (decodeRequest (returnPayload cell)) (s.tallied w)
        | .receipt => receiptCell (decodeRequest (returnPayload cell)) (s.tallied w)
        | .other => s.tallied w
      else s.tallied w := by
  have : ¬headerValid cell = false := by simp [headerValid, hc]
  simp only [returnCell, h, if_neg this]
  rfl

theorem returnCell_of_request (h : s.link.window = some w) (hc : headerCheck cell = be16At cell 14)
    (hup : s.link.state = .up) (hk : byteAt cell 0 = 0x11) :
    returnCell cell s = officeRequestCell (decodeRequest (returnPayload cell)) (s.tallied w) := by
  rw [returnCell_of_valid h hc, if_pos hup, (returnKind_eq_request_iff cell).mpr hk]

theorem returnCell_of_receipt (h : s.link.window = some w) (hc : headerCheck cell = be16At cell 14)
    (hup : s.link.state = .up) (hk : byteAt cell 0 = 0x12) :
    returnCell cell s = receiptCell (decodeRequest (returnPayload cell)) (s.tallied w) := by
  rw [returnCell_of_valid h hc, if_pos hup, (returnKind_eq_receipt_iff cell).mpr hk]

theorem returnCell_of_other (h : s.link.window = some w) (hc : headerCheck cell = be16At cell 14)
    (hother : s.link.state ≠ .up ∨ (byteAt cell 0 ≠ 0x11 ∧ byteAt cell 0 ≠ 0x12)) :
    returnCell cell s = s.tallied w := by
  rw [returnCell_of_valid h hc]
  rcases hother with hdown | ⟨h11, h12⟩
  · rw [if_neg hdown]
  · have hk : returnKind cell = .other := by
      cases hk : returnKind cell with
      | request => exact absurd ((returnKind_eq_request_iff cell).mp hk) h11
      | receipt => exact absurd ((returnKind_eq_receipt_iff cell).mp hk) h12
      | other => rfl
    rw [hk]
    split <;> rfl

theorem officeRequestCell_of_room (h : s.reqs.officeAnswers.length < 8) (ref : Half) (req : Request) :
    officeRequestCell (some (ref, req)) s = answerOffice ref req s := if_neg (Nat.not_le_of_lt h)

theorem officeRequestCell_none (h : s.reqs.officeAnswers.length < 8) : officeRequestCell none s = s :=
  if_neg (Nat.not_le_of_lt h)

theorem answerOffice_of_formsAnswer {req : Request} (h : formsAnswer req = true) (ref : Half) :
    answerOffice ref req s = answered .office (answerTo ref (requestKind req) (handle .office req s).2)
      (handle .office req s).1 := by
  simp only [answerOffice, if_pos h]
  rfl

theorem receiptCell_of_ne {req : Option (Half × Request)} (h : ∀ ref port mark, req ≠ some (ref, .receipt port mark)) :
    receiptCell req s = s := by
  unfold receiptCell
  split
  · exact absurd rfl (h _ _ _)
  · rfl

end

/-- Settles O44: the cell is tallied, and in UP goes where its kind says. -/
theorem returnCellHandedOn : Obligations.ReturnCellHandedOn := by
  intro s u cell w
  have hrun : ∀ {t}, returnCell cell s = t → exec (.returnCell cell) s = .next t := congrArg Host.Outcome.next
  refine ⟨fun h => hrun (returnCell_of_no_window h), fun h hu => ?_⟩
  change u = s.tallied w at hu
  subst hu
  have hreceipt : ∀ ref port mark, s.link.state = .up →
      exec (.receipt .office ref port mark) (s.tallied w) = .next (takeReceipt port mark (s.tallied w)) :=
    fun ref port mark hup => by rw [exec_receipt_office]; exact congrArg _ (if_pos hup)
  refine ⟨fun hc => hrun (returnCell_of_invalid h hc), fun hc => ⟨fun ho => hrun (returnCell_of_other h hc ho),
    fun hup hk hfull => ?_, fun hup hk hroom => ⟨fun hd => ?_, fun ref port mark hd => ?_, fun ref req hd hf => ?_⟩,
    fun hup hk => ⟨fun ref port mark hd => ?_, fun hd => ?_⟩⟩⟩
  · exact hrun ((returnCell_of_request h hc hup hk).trans (officeRequestCell_of_full (s := s.tallied w) hfull _))
  · refine hrun ((returnCell_of_request h hc hup hk).trans ?_)
    rw [hd]
    exact officeRequestCell_none (s := s.tallied w) hroom
  · rw [hreceipt ref port mark hup]
    refine hrun ((returnCell_of_request h hc hup hk).trans ?_)
    rw [hd]
    exact officeRequestCell_of_room (s := s.tallied w) hroom ref _
  · refine hrun ((returnCell_of_request h hc hup hk).trans ?_)
    rw [hd, officeRequestCell_of_room (s := s.tallied w) hroom, answerOffice_of_formsAnswer hf]
  · rw [hreceipt ref port mark hup]
    refine hrun ((returnCell_of_receipt h hc hup hk).trans ?_)
    rw [hd]
    rfl
  · exact hrun ((returnCell_of_receipt h hc hup hk).trans (receiptCell_of_ne hd))

/-! ### Control slots (R132, R133) -/

/-- Settles O43: the first case of R133 that applies. -/
theorem controlSlotByCase : Obligations.ControlSlotByCase := by
  intro s
  dsimp only
  have hrun : ∀ {t}, controlSlot s = t → exec .controlSlot s = .next t := congrArg Host.Outcome.next
  have hup' : s.link.state = .up → ¬s.link.state ≠ .up := not_not.mpr
  refine ⟨fun hdown => hrun (if_pos hdown), fun a rest hup ha => hrun ((if_neg (hup' hup)).trans ?_),
    fun hup ha hn => hrun ((if_neg (hup' hup)).trans ?_), fun hup ha hn => hrun ((if_neg (hup' hup)).trans ?_)⟩
  · rw [ha]
    rfl
  · rw [ha]
    exact if_pos ((FlagSet.nonempty_iff _).mpr hn)
  · rw [ha]
    refine if_neg fun h => ?_
    obtain ⟨e, he⟩ := (FlagSet.nonempty_iff _).mp h
    rw [hn e] at he
    exact Bool.noConfusion he

/-! ### Light, recovery, restarting (R123, R129, R131) -/

theorem exec_restartLink_of_takable {m : Master} {s t : State} {r : Reply} (h : takable m s) (ref : Half)
    (hr : handleRestartLink m (heard m s) = (t, r)) :
    exec (.restartLink m ref) s = .next (answered m (answerTo ref 0x13 r) t) :=
  congrArg Host.Outcome.next (arrive_of_handle (req := .restartLink) h ref rfl hr)

theorem handleRestartLink_of_halted {s : State} (h : s.link.state = .halted) :
    handleRestartLink .line s = (enterAligning s, doneWith [1]) := by
  unfold handleRestartLink
  simp only [if_pos h]
  rfl

theorem handleRestartLink_of_ne {s : State} (h : s.link.state ≠ .halted) :
    handleRestartLink .line s = (s, doneWith [byteOf s.link.state.code]) := by
  unfold handleRestartLink
  simp only [if_neg h]

theorem LinkState.byteOf_code (l : LinkState) :
    byteOf l.code = match l with | .down => 0 | .aligning => 1 | .up => 2 | .recovering => 3 | .halted => 4 := by
  cases l <;> rfl

/-- Settles O42. -/
theorem lightRecoveryAndRestart : Obligations.LightRecoveryAndRestart := by
  refine ⟨fun s => ⟨fun h => ?_, fun h => ⟨?_, ?_⟩, fun h => ?_⟩, fun s h => ?_, fun s h ht => ?_,
    fun s ref => ⟨fun htake => ?_, fun h => ?_, fun h => ?_⟩⟩
  · have hdown : s.link.state ≠ .down := by rcases h with h | h | h <;> rw [h] <;> exact LinkState.noConfusion
    have hup : s.link.state ≠ .up := by rcases h with h | h | h <;> rw [h] <;> exact LinkState.noConfusion
    exact congrArg Host.Outcome.next ((if_neg hdown).trans (if_neg hup))
  · exact congrArg Host.Outcome.next (if_pos h)
  · exact congrArg Host.Outcome.next (if_pos h)
  · exact congrArg Host.Outcome.next (if_neg h)
  · refine congrArg Host.Outcome.next (if_neg fun ⟨hs, hran⟩ => ?_)
    rcases h with h | h
    · exact h hs
    · exact h (by simpa [ranOut] using hran)
  · exact congrArg Host.Outcome.next (if_pos ⟨h, by simp [ranOut, ht]⟩)
  · exact exec_restartLink_of_takable htake ref rfl
  · exact exec_restartLink_of_takable (takable_line s) ref (handleRestartLink_of_halted (s := heard .line s) h)
  · have hrun := exec_restartLink_of_takable (takable_line s) ref (handleRestartLink_of_ne (s := heard .line s) h)
    rw [heard_link, LinkState.byteOf_code] at hrun
    exact hrun

/-! ### The end of a window (R124 to R128) -/

theorem Window.good_iff (w : Window) : w.good = true ↔ 1 ≤ w.valid ∧ w.failures ≤ 4 := by
  simp [Window.good]

theorem exec_windowEnd_of_window {s : State} {w : Window} (h : s.link.window = some w) :
    exec .windowEnd s = .next (judgeWindow w.good
      { s with link := { s.link with window := some { valid := 0, failures := 0 } } }) := by
  change execWindowEnd s = _
  simp only [execWindowEnd, endWindow, h]
  rfl

section

variable {s : State}

theorem judgeWindow_bad (h : s.link.state = .aligning ∨ s.link.state = .recovering) :
    judgeWindow false s = { s with link := { s.link with goodRun := 0 } } := by
  unfold judgeWindow
  rcases h with h | h <;> rw [h] <;> rfl

theorem judgeWindow_first_good (h : s.link.state = .aligning ∨ s.link.state = .recovering) (hr : s.link.goodRun = 0) :
    judgeWindow true s = { s with link := { s.link with goodRun := 1 } } := by
  unfold judgeWindow
  rcases h with h | h <;> rw [h] <;> simp only [State.modLink, hr] <;> rfl

theorem judgeWindow_aligned (h : s.link.state = .aligning) (hr : 1 ≤ s.link.goodRun) :
    judgeWindow true s = enterUp s := by
  unfold judgeWindow
  rw [h]
  exact if_pos (Nat.succ_le_succ hr)

theorem judgeWindow_recovered (h : s.link.state = .recovering) (hr : 1 ≤ s.link.goodRun) :
    judgeWindow true s = (enterUp s).countGlobal .linkRecovered 1 := by
  unfold judgeWindow
  rw [h]
  exact if_pos (Nat.succ_le_succ hr)

theorem judgeWindow_up_good (h : s.link.state = .up) :
    judgeWindow true s = { s with link := { s.link with badRun := 0 } } := by
  unfold judgeWindow
  rw [h]
  rfl

theorem judgeWindow_up_bad (h : s.link.state = .up) (hr : s.link.badRun + 1 < faultCount s.link.faultCode) :
    judgeWindow false s = { s with link := { s.link with badRun := s.link.badRun + 1 } } := by
  unfold judgeWindow
  rw [h]
  exact if_neg (Nat.not_le_of_lt hr)

theorem judgeWindow_up_lost (h : s.link.state = .up) (hr : faultCount s.link.faultCode ≤ s.link.badRun + 1) :
    judgeWindow false s = enterRecovering s := by
  unfold judgeWindow
  rw [h]
  exact if_pos hr

end

/-- Settles O40: the judgement of each window by the state it finds. -/
theorem windowEndJudged : Obligations.WindowEndJudged := by
  intro s b w hw hb
  dsimp only
  have hrun := exec_windowEnd_of_window hw
  rw [← hb] at hrun
  have hgood : 1 ≤ w.valid ∧ w.failures ≤ 4 → exec .windowEnd s = .next (judgeWindow true b) := fun hg => by
    rw [hrun, (Window.good_iff w).mpr hg]
  have hbad : ¬(1 ≤ w.valid ∧ w.failures ≤ 4) → exec .windowEnd s = .next (judgeWindow false b) := fun hg => by
    rw [hrun, Bool.eq_false_iff.mpr (mt (Window.good_iff w).mp hg)]
  have hstate : b.link.state = s.link.state := by rw [hb]
  have hgoodRun : b.link.goodRun = s.link.goodRun := by rw [hb]
  have hbadRun : b.link.badRun = s.link.badRun := by rw [hb]
  have hcode : b.link.faultCode = s.link.faultCode := by rw [hb]
  rw [← hstate, ← hgoodRun, ← hbadRun, ← hcode]
  clear hb hrun hstate hgoodRun hbadRun hcode
  refine ⟨fun hs => ⟨fun hg => ?_, fun hg hr => ?_⟩, fun hs hg hr => ?_, fun hs hg hr => ?_,
    fun hs => ⟨fun hg => ?_, fun hg hr => ?_⟩⟩
  · rw [hbad hg, judgeWindow_bad hs]
  · rw [hgood hg, judgeWindow_first_good hs hr]
  · rw [hgood hg, judgeWindow_aligned hs hr]
    rfl
  · rw [hgood hg, judgeWindow_recovered hs hr]
    rfl
  · rw [hgood hg, judgeWindow_up_good hs]
  · rw [hbad hg, judgeWindow_up_bad hs hr]

end Sys2Proof.Machine
end

section
/-! PROOFS. The link's leaving UP: sends undone, the office's locks and answers gone (R106, R127, R155). -/

namespace Sys2Proof.Machine

/-! ### Live sends undone (R106) -/

/-- Record `n` heads port `k`'s live queue and is being sent. -/
def liveSending (s : State) (k : Port) (n : Nat) : Prop :=
  (s.liveQueue k).head? = some n ∧ (s.record n).state = .sending

/-- `u` is `s` once the live sends of `ports` are undone. -/
structure LiveUndone (ports : List Port) (s u : State) : Prop where
  wf : Table.wf FrameRecord.blank u.store.catalogue
  undone : ∀ n, (∃ k ∈ ports, liveSending s k n) → u.record n = (s.record n).undone
  otherRecord : ∀ n, ¬(∃ k ∈ ports, liveSending s k n) → u.record n = s.record n
  absent : ∀ k ∈ ports, (∃ n, liveSending s k n) → u.chan (chanOf k) = { s.chan (chanOf k) with current := none }
  otherChan : ∀ c, ¬(∃ k ∈ ports, c = chanOf k ∧ ∃ n, liveSending s k n) → u.chan c = s.chan c
  rest : u = { s with
    store := { s.store with catalogue := u.store.catalogue }
    uplink := { s.uplink with chans := u.uplink.chans } }

theorem chanOf_injective : Function.Injective chanOf := Fin.castSucc_injective 8

/-- The ports after the first find their heads as the first found them: it undoes another record. -/
theorem liveUndone_cons {k : Port} {ports : List Port} {s u : State}
    (hwf : Table.wf FrameRecord.blank s.store.catalogue)
    (hheads : ∀ (j k : Port) (n : Nat), (s.liveQueue j).head? = some n → (s.liveQueue k).head? = some n → j = k)
    (hk : k ∉ ports) (h : LiveUndone ports (undoLive k s) u) : LiveUndone (k :: ports) s u := by
  obtain ⟨-, hrest, -, hrecord, habsent, -, hchans⟩ := undoLive_spec k hwf
  have hqueue : ∀ j, (undoLive k s).liveQueue j = s.liveQueue j := fun j => by rw [hrest]; rfl
  have hown : ∀ n, liveSending s k n → (undoLive k s).record n = (s.record n).undone := fun n hn =>
    (hrecord n).trans (if_pos hn)
  have hkept : ∀ n, ¬liveSending s k n → (undoLive k s).record n = s.record n := fun n hn =>
    (hrecord n).trans (if_neg hn)
  have hsending : ∀ j n, j ≠ k → (liveSending (undoLive k s) j n ↔ liveSending s j n) := fun j n hj => by
    unfold liveSending
    rw [hqueue]
    refine and_congr_right fun hhead => ?_
    rw [hkept n fun hn => hj (hheads j k n hhead hn.1)]
  have hlater : ∀ n, (∃ j ∈ ports, liveSending (undoLive k s) j n) ↔ ∃ j ∈ ports, liveSending s j n := fun n =>
    exists_congr fun j => and_congr_right fun hj => hsending j n fun e => hk (e ▸ hj)
  have hnone : ∀ n, liveSending s k n → ¬∃ j ∈ ports, liveSending s j n := fun n hn ⟨j, hj, hjn⟩ =>
    hk (hheads j k n hjn.1 hn.1 ▸ hj)
  have hlaterChan : ∀ c, c = chanOf k → ¬∃ j ∈ ports, c = chanOf j ∧ ∃ n, liveSending (undoLive k s) j n :=
    fun c hc ⟨j, hj, hcj, _⟩ => hk (chanOf_injective (hc.symm.trans hcj) ▸ hj)
  refine ⟨h.wf, fun n ⟨j, hj, hjn⟩ => ?undone, fun n hn => ?otherRecord, fun j hj hjn => ?absent,
    fun c hc => ?otherChan, ?rest⟩
  case undone =>
    rcases List.mem_cons.mp hj with rfl | hj
    · rw [h.otherRecord n (mt (hlater n).mp (hnone n hjn)), hown n hjn]
    · rw [h.undone n ((hlater n).mpr ⟨j, hj, hjn⟩), hkept n fun hn => hnone n hn ⟨j, hj, hjn⟩]
  case otherRecord =>
    rw [h.otherRecord n fun hj => hn ?_, hkept n fun hkn => hn ⟨k, List.mem_cons_self .., hkn⟩]
    obtain ⟨j, hj, hjn⟩ := (hlater n).mp hj
    exact ⟨j, List.mem_cons_of_mem _ hj, hjn⟩
  case absent =>
    rcases List.mem_cons.mp hj with rfl | hj
    · obtain ⟨n, hn⟩ := hjn
      rw [h.otherChan _ (hlaterChan _ rfl), habsent n hn.1 hn.2]
    · have hne : j ≠ k := fun e => hk (e ▸ hj)
      obtain ⟨n, hn⟩ := hjn
      rw [h.absent j hj ⟨n, (hsending j n hne).mpr hn⟩, hchans _ fun e => hne (chanOf_injective e)]
  case otherChan =>
    have hfirst : (undoLive k s).chan c = s.chan c := by
      by_cases hck : c = chanOf k
      · have hidle : ¬∃ n, liveSending s k n := fun hn => hc ⟨k, List.mem_cons_self .., hck, hn⟩
        rw [(undoLive_spec k hwf).2.2.2.2.2.1 hidle]
      · exact hchans c hck
    refine (h.otherChan c fun ⟨j, hj, hcj, n, hn⟩ => hc ?_).trans hfirst
    exact ⟨j, List.mem_cons_of_mem _ hj, hcj, n, (hsending j n fun e => hk (e ▸ hj)).mp hn⟩
  case rest => rw [h.rest, hrest]

theorem liveUndone_foldl {ports : List Port} {s : State} (hwf : Table.wf FrameRecord.blank s.store.catalogue)
    (hheads : ∀ (j k : Port) (n : Nat), (s.liveQueue j).head? = some n → (s.liveQueue k).head? = some n → j = k)
    (hports : ports.Nodup) : LiveUndone ports s (ports.foldl (fun u k => undoLive k u) s) := by
  induction ports generalizing s with
  | nil => exact ⟨hwf, by simp, fun _ _ => rfl, by simp, fun _ _ => rfl, rfl⟩
  | cons k ports ih =>
    rw [List.nodup_cons] at hports
    obtain ⟨hwf', hrest, -⟩ := undoLive_spec k hwf
    have hqueue : ∀ j, (undoLive k s).liveQueue j = s.liveQueue j := fun j => by rw [hrest]; rfl
    exact liveUndone_cons hwf hheads hports.1 (ih hwf' (fun i j n => by rw [hqueue, hqueue]; exact hheads i j n) hports.2)

theorem liveUndone_eachPort {s : State} (hwf : Table.wf FrameRecord.blank s.store.catalogue)
    (hheads : ∀ (j k : Port) (n : Nat), (s.liveQueue j).head? = some n → (s.liveQueue k).head? = some n → j = k) :
    LiveUndone allPorts s (eachPort undoLive s) := liveUndone_foldl hwf hheads (by decide)

/-! ### The recall in progress undone (R106) -/

/-- A recall queue whose head has not started. -/
def headUnstarted : List RecallEntry → List RecallEntry
  | [] => []
  | e :: rest => { e with started := false } :: rest

theorem headUnstarted_of_not_started {q : List RecallEntry} (h : ¬∃ e, q.head? = some e ∧ e.started = true) :
    headUnstarted q = q := by
  cases q with
  | nil => rfl
  | cons e rest =>
    have : e.started = false := Bool.eq_false_iff.mpr fun he => h ⟨e, rfl, he⟩
    simp only [headUnstarted, ← this]

theorem undoRecall_of_idle {u : State} (h : ¬∃ e, u.recalls.queue.head? = some e ∧ e.started = true) :
    undoRecall u = u := by
  unfold undoRecall
  split
  · rfl
  · rename_i e rest hq
    exact if_neg fun he => h ⟨e, by rw [hq]; rfl, he⟩

theorem undoRecall_of_started {u : State} {e : RecallEntry} (h : u.recalls.queue.head? = some e)
    (he : e.started = true) :
    undoRecall u = (({ u with recalls := { u.recalls with queue := headUnstarted u.recalls.queue } } : State).setRecord
      e.record { u.record e.record with cellsSent := 0 }).modChan recallChan fun c => { c with current := none } := by
  cases hq : u.recalls.queue with
  | nil => rw [hq] at h; cases h
  | cons e' rest =>
    rw [hq] at h
    cases h
    unfold undoRecall setHeadStarted
    simp only [hq, if_pos he]
    rfl

/-! ### Every send undone, and the rest of the departure (R127, R155) -/

/-- `t` is `s` once every send in progress is undone. -/
structure SendsUndone (s t : State) : Prop where
  undone : ∀ n, sendUndone s n → t.record n = (s.record n).undone
  otherRecord : ∀ n, ¬sendUndone s n → t.record n = s.record n
  live : ∀ k, (∃ n, liveSending s k n) → t.chan (chanOf k) = { s.chan (chanOf k) with current := none }
  liveIdle : ∀ k, (¬∃ n, liveSending s k n) → t.chan (chanOf k) = s.chan (chanOf k)
  recallAbsent : (∃ e, s.recalls.queue.head? = some e ∧ e.started = true) →
    t.chan recallChan = { s.chan recallChan with current := none }
  recallIdle : (¬∃ e, s.recalls.queue.head? = some e ∧ e.started = true) → t.chan recallChan = s.chan recallChan
  queue : t.recalls.queue = headUnstarted s.recalls.queue
  rest : t = { s with
    store := { s.store with catalogue := t.store.catalogue }
    uplink := { s.uplink with chans := t.uplink.chans }
    recalls := { s.recalls with queue := t.recalls.queue } }

theorem chanOf_ne_recallChan (k : Port) : chanOf k ≠ recallChan := by revert k; decide

section

variable {s u : State}

/-- With no recall in progress the live sends are all. -/
theorem sendsUndone_of_idle (h : LiveUndone allPorts s u) (hidle : ¬∃ e, s.recalls.queue.head? = some e ∧ e.started = true) :
    SendsUndone s u := by
  have hrecalls : u.recalls = s.recalls := by rw [h.rest]
  have hlive : ∀ n, sendUndone s n ↔ ∃ k ∈ allPorts, liveSending s k n := fun n =>
    ⟨fun hn => hn.elim (fun ⟨k, hk⟩ => ⟨k, mem_allPorts k, hk⟩) fun ⟨e, he, hs, _⟩ => absurd ⟨e, he, hs⟩ hidle,
      fun ⟨k, _, hk⟩ => .inl ⟨k, hk⟩⟩
  refine ⟨fun n hn => h.undone n ((hlive n).mp hn), fun n hn => h.otherRecord n (mt (hlive n).mpr hn),
    fun k hk => h.absent k (mem_allPorts k) hk, fun k hk => h.otherChan _ fun ⟨j, _, hj, hn⟩ => hk ?_,
    fun hs => absurd hs hidle, fun _ => h.otherChan _ fun ⟨j, _, hj, _⟩ => chanOf_ne_recallChan j hj.symm, ?_, ?_⟩
  · rwa [chanOf_injective hj]
  · rw [hrecalls, headUnstarted_of_not_started hidle]
  · rw [h.rest]

/-- A recall in progress joins the live sends: its record is none of theirs. -/
theorem sendsUndone_of_started (h : LiveUndone allPorts s u) {e : RecallEntry} (he : s.recalls.queue.head? = some e)
    (hs : e.started = true) (hne : (s.record e.record).state ≠ .sending) : SendsUndone s (undoRecall u) := by
  have hrecalls : u.recalls = s.recalls := by rw [h.rest]
  have hstarted : ∃ e, s.recalls.queue.head? = some e ∧ e.started = true := ⟨e, he, hs⟩
  have hnot : ¬∃ k ∈ allPorts, liveSending s k e.record := fun ⟨k, _, hk⟩ => hne hk.2
  have hundone : { s.record e.record with cellsSent := 0 } = (s.record e.record).undone := by
    unfold FrameRecord.undone
    rw [if_neg hne]
  rw [undoRecall_of_started (by rw [hrecalls]; exact he) hs, h.otherRecord _ hnot, hundone, hrecalls]
  refine ⟨fun n hn => ?_, fun n hn => ?_, fun k hk => ?_, fun k hk => ?_, fun _ => ?_, fun hi => absurd hstarted hi, rfl, ?_⟩
  · rw [State.record_modChan]
    by_cases hne' : n = e.record
    · subst hne'
      exact State.record_setRecord h.wf ..
    · refine (State.record_setRecord_other h.wf hne' _).trans (h.undone n ?_)
      refine hn.elim (fun ⟨k, hk⟩ => ⟨k, mem_allPorts k, hk⟩) fun ⟨e', he', _, hr⟩ => ?_
      rw [he] at he'
      cases he'
      exact absurd hr.symm hne'
  · rw [State.record_modChan]
    have hne' : n ≠ e.record := fun hr => hn (.inr ⟨e, he, hs, hr.symm⟩)
    exact (State.record_setRecord_other h.wf hne' _).trans
      (h.otherRecord n fun ⟨k, _, hk⟩ => hn (.inl ⟨k, hk⟩))
  · rw [State.chan_modChan_ne _ _ (chanOf_ne_recallChan k)]
    exact h.absent k (mem_allPorts k) hk
  · rw [State.chan_modChan_ne _ _ (chanOf_ne_recallChan k)]
    exact h.otherChan _ fun ⟨j, _, hj, hn⟩ => hk (by rwa [chanOf_injective hj])
  · rw [State.chan_modChan]
    exact congrArg (fun c : Channel => { c with current := none })
      (h.otherChan _ fun ⟨j, _, hj, _⟩ => chanOf_ne_recallChan j hj.symm)
  · rw [h.rest]
    rfl

theorem sendsUndone_undoSends (hwf : Table.wf FrameRecord.blank s.store.catalogue)
    (hheads : ∀ (j k : Port) (n : Nat), (s.liveQueue j).head? = some n → (s.liveQueue k).head? = some n → j = k)
    (hrecalled : ∀ e, s.recalls.queue.head? = some e → (s.record e.record).state ≠ .sending) :
    SendsUndone s (undoSends s) := by
  have hlive := liveUndone_eachPort hwf hheads
  unfold undoSends
  by_cases hs : ∃ e, s.recalls.queue.head? = some e ∧ e.started = true
  · obtain ⟨e, he, hs⟩ := hs
    exact sendsUndone_of_started hlive he hs (hrecalled e he)
  · rw [undoRecall_of_idle (by rw [hlive.rest]; exact hs)]
    exact sendsUndone_of_idle hlive hs

end

/-- What the departure does beyond the sends: to the requests' unit and to the event unit. -/
theorem leaveUp_shape (s : State) : ∃ (locks : Vector (Option Lock) 13) (counts : Vector Word 8),
    (∀ l : Fin 13, locks[l] = ((undoSends s).lock l).filter fun e => e.holder ≠ .office) ∧
    (∀ c : GlobalCount, counts[c.idx] = (undoSends s).globalCount c +
      if c = .officeAnswersLost then wordOf (undoSends s).reqs.officeAnswers.length else 0) ∧
    leaveUp s = { undoSends s with
      reqs := { (undoSends s).reqs with officeAnswers := [], locks }
      events := { (undoSends s).events.raise (.global .linkDown) with globalCounts := counts } } := by
  unfold leaveUp
  generalize undoSends s = t
  exact ⟨(releaseLocks .office t).reqs.locks,
    (t.countGlobal .officeAnswersLost t.reqs.officeAnswers.length).events.globalCounts, lock_releaseLocks .office t,
    fun c => globalCount_countGlobal t .officeAnswersLost c _, rfl⟩

/-- With its sends undone, the link's leaving UP leaves what `linkDeparted` says, and its own items. -/
theorem linkDeparted_leaveUp {s : State} (h : SendsUndone s (undoSends s)) :
    linkDeparted s (leaveUp s) ∧ (leaveUp s).link = s.link := by
  obtain ⟨locks, counts, hlocks, hcounts, heq⟩ := leaveUp_shape s
  have hevents : (undoSends s).events = s.events := by rw [h.rest]
  have hreqs : (undoSends s).reqs = s.reqs := by rw [h.rest]
  have hlink : (undoSends s).link = s.link := by rw [h.rest]
  rw [heq]
  generalize undoSends s = t at h hlocks hcounts hevents hreqs hlink
  refine ⟨⟨h.undone, h.otherRecord, fun k => ?live, ?recalled, h.queue.trans ?queue, fun l => (hlocks l).trans ?lock,
    fun c => (hcounts c).trans ?count, ?rest⟩, hlink⟩
  case live =>
    by_cases hk : ∃ n, (s.liveQueue k).head? = some n ∧ (s.record n).state = .sending
    · rw [if_pos hk]
      exact h.live k hk
    · rw [if_neg hk]
      exact h.liveIdle k hk
  case recalled =>
    by_cases hs : ∃ e, s.recalls.queue.head? = some e ∧ e.started = true
    · rw [if_pos hs]
      exact h.recallAbsent hs
    · rw [if_neg hs]
      exact h.recallIdle hs
  case queue => cases s.recalls.queue <;> rfl
  case lock =>
    unfold State.lock
    rw [hreqs]
  case count =>
    unfold State.globalCount
    rw [hevents, hreqs]
  case rest =>
    rw [hevents, hreqs]
    rw [h.rest]
    rfl

/-- Settles O41: at either departure the link's items are set first, and `leaveUp` reads none of them. -/
theorem leavingUpUndoesSends : Obligations.LeavingUpUndoesSends := by
  intro s hup hwf hheads hrecalled
  have hdeparted : ∀ l : Link, linkDeparted s (leaveUp { s with link := l }) ∧ (leaveUp { s with link := l }).link = l :=
    fun l => linkDeparted_leaveUp (s := { s with link := l })
      (sendsUndone_undoSends (s := { s with link := l }) hwf hheads hrecalled)
  refine ⟨fun w hw hbad hlost => ?_, ?_⟩
  · have hrun := exec_windowEnd_of_window hw
    rw [Bool.eq_false_iff.mpr (mt (Window.good_iff w).mp hbad), judgeWindow_up_lost (by exact hup) (by exact hlost)] at hrun
    exact ⟨_, hrun, hdeparted _⟩
  · have hnot : s.link.state ≠ .down := by rw [hup]; exact LinkState.noConfusion
    exact ⟨_, congrArg Host.Outcome.next ((if_neg hnot).trans (if_pos hup)), hdeparted _⟩

end Sys2Proof.Machine
end

section
/-! PROOFS. Block errors met in a read, and the slot arbiter (R56 to R58, R98, R99). -/

namespace Sys2Proof.Machine

/-! ### One block read (R56, R57) -/

section

variable {n lo hi : Nat} {s : State}

theorem readBlock_of_sound (h : s.blockHealth (frameAddress (s.record n).chain lo / 64) = .sound) :
    readBlock n lo hi s = (frameBytes s (s.record n) lo hi, false, s) := by
  have : s.blockHealth (frameAddress (s.record n).chain lo / Config.blockBytes) = .sound := h
  simp only [readBlock, this]

theorem readBlock_of_correctable (h : s.blockHealth (frameAddress (s.record n).chain lo / 64) = .correctable) :
    readBlock n lo hi s = (frameBytes s (s.record n) lo hi, false, s.countGlobal .corrected 1) := by
  have : s.blockHealth (frameAddress (s.record n).chain lo / Config.blockBytes) = .correctable := h
  simp only [readBlock, this]

theorem readBlock_of_uncorrectable (h : s.blockHealth (frameAddress (s.record n).chain lo / 64) = .uncorrectable) :
    readBlock n lo hi s =
      ((ascending lo (hi - lo)).map fun b => Config.freeByte s.draws (frameAddress (s.record n).chain b), true,
        ((({ s with draws := s.draws + 1 } : State).countGlobal .uncorrectable 1).raise .storeEcc).setRecord n
          { s.record n with readError := true }) := by
  have : s.blockHealth (frameAddress (s.record n).chain lo / Config.blockBytes) = .uncorrectable := h
  simp only [readBlock, this]
  rfl

end

/-- Settles O36: one case for each health of the block. -/
theorem blockErrorsReported : Obligations.BlockErrorsReported := by
  intro s t n lo hi bytes poison r hr hread
  subst hr
  dsimp only
  refine ⟨fun h => ?_, fun h => ?_, fun h hf => ?_⟩
  · rw [readBlock_of_sound h] at hread
    simpa only [Prod.mk.injEq] using hread
  · rw [readBlock_of_correctable h] at hread
    simpa only [Prod.mk.injEq] using hread
  · rw [readBlock_of_uncorrectable h] at hread
    simp only [Prod.mk.injEq] at hread
    obtain ⟨hbytes, hpoison, ht⟩ := hread
    refine ⟨hpoison, ?_, ?_, ?_, ?_, ?_, ?_⟩
    · rw [hbytes, List.length_map, length_ascending]
    · rw [ht]
      exact State.record_setRecord_of_used _ _ hf
    all_goals rw [ht]; rfl

/-! ### The slot arbiter (R98, R99) -/

theorem creditEligible_iff (s : State) (c : Chan) :
    creditEligible s c = true ↔ hasCell s c ∧ 16 ≤ (s.chan c).credit := by
  unfold creditEligible
  rw [Bool.and_eq_true, cellReady_iff, decide_eq_true_eq]

theorem surplusEligible_iff (s : State) (c : Chan) :
    surplusEligible s c = true ↔ hasCell s c ∧ (s.chan c).surplus = true := by
  unfold surplusEligible
  rw [Bool.and_eq_true, cellReady_iff]

theorem creditWinner_eq_none {s : State} (h : ∀ c, ¬(hasCell s c ∧ 16 ≤ (s.chan c).credit)) : creditWinner s = none := by
  refine List.find?_eq_none.mpr fun c _ => ?_
  rw [creditEligible_iff]
  exact h c

theorem surplusWinner_eq_none {s : State} (h : ∀ c, ¬(hasCell s c ∧ (s.chan c).surplus = true)) :
    surplusWinner s = none := by
  refine List.find?_eq_none.mpr fun c _ => ?_
  rw [surplusEligible_iff]
  exact h c

theorem dataSlot_of_credit {s : State} {c : Chan} (h : creditWinner s = some c) :
    dataSlot s = grant c (({ s with uplink := { s.uplink with lastCredit := c } } : State).modChan c
      fun x => { x with credit := x.credit - 16 }) := by
  simp only [dataSlot, h]

theorem dataSlot_of_surplus {s : State} {c : Chan} (h : creditWinner s = none) (h' : surplusWinner s = some c) :
    dataSlot s = grant c { s with uplink := { s.uplink with lastSurplus := c } } := by
  simp only [dataSlot, h, h']

theorem dataSlot_of_none {s : State} (h : creditWinner s = none) (h' : surplusWinner s = none) :
    dataSlot s = sendCell (idleFill s.link.state) s := by
  simp only [dataSlot, h, h']

theorem exec_dataSlot (errors : List MemError) (s : State) :
    exec (.dataSlot errors) s = .next (dataSlot (errors.foldl spoilBlock s)) := rfl

/-- Settles O33: memory errors leave the arbiter's inputs as they stand, and a grant leaves its results. -/
theorem arbiterGrantsSlot : Obligations.ArbiterGrantsSlot := by
  intro s errors
  dsimp only
  obtain ⟨health, hspoiled⟩ := foldl_spoilBlock errors s
  refine ⟨fun c hc hmin => ?_, fun c hnone hc hmin => ?_, fun hnone hnone' => ?_⟩
  · have hwinner : creditWinner (errors.foldl spoilBlock s) = some c := by
      rw [hspoiled]
      exact cyclicAfter_find? ((creditEligible_iff s c).mpr hc) fun b hb => hmin b ((creditEligible_iff s b).mp hb)
    refine ⟨_, rfl, ?_⟩
    rw [dataSlot_of_credit hwinner, hspoiled]
    have hframe := grantFrame_grant c (({ s with
        store := { s.store with health := health }, uplink := { s.uplink with lastCredit := c } } : State).modChan c
      fun x => { x with credit := x.credit - 16 })
    refine ⟨hframe.lastCredit, hframe.lastSurplus, (hframe.credit c).trans ?_, fun b hb => (hframe.credit b).trans ?_⟩
    · rw [State.chan_modChan]
      rfl
    · rw [State.chan_modChan_ne _ _ hb]
      rfl
  · have hcredit : creditWinner (errors.foldl spoilBlock s) = none := by
      rw [hspoiled]
      exact creditWinner_eq_none hnone
    have hwinner : surplusWinner (errors.foldl spoilBlock s) = some c := by
      rw [hspoiled]
      exact cyclicAfter_find? ((surplusEligible_iff s c).mpr hc) fun b hb => hmin b ((surplusEligible_iff s b).mp hb)
    refine ⟨_, rfl, ?_⟩
    rw [dataSlot_of_surplus hcredit hwinner, hspoiled]
    have hframe := grantFrame_grant c { s with
      store := { s.store with health := health }, uplink := { s.uplink with lastSurplus := c } }
    exact ⟨hframe.lastCredit, hframe.lastSurplus, hframe.credit⟩
  · rw [exec_dataSlot]
    exact congrArg Host.Outcome.next
      (dataSlot_of_none (s := s) (creditWinner_eq_none hnone) (surplusWinner_eq_none hnone'))

end Sys2Proof.Machine
end

section
/-! PROOFS. Data slots granted to camera channels (R101, R103, R168, R169). -/

namespace Sys2Proof.Machine

/-! ### What a grant leaves -/

/-- What no grant changes, of either kind of channel. -/
structure SendFrame (s t : State) : Prop where
  cams : t.cams = s.cams
  sups : t.sups = s.sups
  shots : t.shots = s.shots
  link : t.link = s.link
  marks : t.recalls.marks = s.recalls.marks
  mem : t.store.mem = s.store.mem
  health : t.store.health = s.store.health
  ageList : t.store.ageList = s.store.ageList

theorem SendFrame.refl (s : State) : SendFrame s s := ⟨rfl, rfl, rfl, rfl, rfl, rfl, rfl, rfl⟩

theorem SendFrame.trans {s t u : State} (h : SendFrame s t) (g : SendFrame t u) : SendFrame s u :=
  ⟨g.cams.trans h.cams, g.sups.trans h.sups, g.shots.trans h.shots, g.link.trans h.link, g.marks.trans h.marks,
    g.mem.trans h.mem, g.health.trans h.health, g.ageList.trans h.ageList⟩

/-- A slot with a winner is a grant in a device that differs in the uplink's turns and budgets alone. -/
theorem dataSlot_of_winner {s : State} {c : Chan}
    (h : creditWinner s = some c ∨ (creditWinner s = none ∧ surplusWinner s = some c)) :
    ∃ up : Uplink, dataSlot s = grant c { s with uplink := up } ∧ up.live = s.uplink.live := by
  rcases h with h | ⟨h, h'⟩
  · exact ⟨_, dataSlot_of_credit h, rfl⟩
  · exact ⟨_, dataSlot_of_surplus h h', rfl⟩

/-- Memory errors leave the winner of the slot. -/
theorem dataSlot_of_winner_spoiled {s : State} {c : Chan} (errors : List MemError)
    (h : creditWinner s = some c ∨ (creditWinner s = none ∧ surplusWinner s = some c)) :
    ∃ up : Uplink, dataSlot (errors.foldl spoilBlock s) =
      grant c { errors.foldl spoilBlock s with uplink := up } ∧ up.live = s.uplink.live := by
  obtain ⟨health, hspoiled⟩ := foldl_spoilBlock errors s
  rw [hspoiled]
  exact dataSlot_of_winner (s := { s with store := { s.store with health := health } }) h

/-- What is reported of a cell depends on memory, block health, link, events and the record's read error alone. -/
theorem cellReported_congr {s s' t t' : State} {c : Chan} {n : Nat} {r : FrameRecord} (h : cellReported s t c n r)
    (hmem : s'.store.mem = s.store.mem) (hhealth : s'.store.health = s.store.health) (hlink : s'.link = s.link)
    (hevents : s'.events = s.events) (hsent : t'.uplink.sent = t.uplink.sent)
    (hread : (t'.record n).readError = (t.record n).readError)
    (hcounts : ∀ d, d ≠ .cellsRecall → t'.globalCount d = t.globalCount d) (hflags : t'.events.flags = t.events.flags) :
    cellReported s' t' c n r := by
  have hbyte : ∀ a, readByte s' a = readByte s a := fun a => by unfold readByte; rw [hmem]
  have hblock : ∀ b, s'.blockHealth b = s.blockHealth b := fun b => by unfold State.blockHealth; rw [hhealth]
  have hcount : ∀ d, s'.globalCount d = s.globalCount d := fun d => by unfold State.globalCount; rw [hevents]
  unfold cellReported soundCell at *
  simp only [hbyte, hblock, hlink, hevents, hsent, hread, hcount, hflags, hcounts .uncorrectable GlobalCount.noConfusion,
    hcounts .corrected GlobalCount.noConfusion]
  exact h

/-! ### The grant of a live send (R101, R103) -/

section

variable {s : State} {k : Port} {n : Nat}

/-- The record as a live send finds it at the grant. -/
theorem beginSend_spec (k : Port) (s : State) {r : FrameRecord}
    (hr : r = if (s.record n).state = .sending then s.record n
      else { s.record n with state := .sending, cellsSent := 0 }) :
    (beginSend k n s).record n = r ∧ (beginSend k n s).uplink.live = s.uplink.live ∧
      (beginSend k n s).events = s.events ∧ (beginSend k n s).recalls = s.recalls ∧
      ((s.record n).state ≠ .sending → ((beginSend k n s).chan (chanOf k)).current = some n) ∧
      SendFrame s (beginSend k n s) := by
  unfold beginSend
  by_cases hs : (s.record n).state = .sending
  · rw [if_pos hs] at hr ⊢
    exact ⟨hr.symm, rfl, rfl, rfl, fun h => absurd hs h, .refl s⟩
  · rw [if_neg hs] at hr ⊢
    refine ⟨?_, rfl, rfl, rfl, fun _ => by rw [State.chan_modChan], ⟨rfl, rfl, rfl, rfl, rfl, rfl, rfl, rfl⟩⟩
    rw [State.record_modChan, hr]
    exact State.record_setRecord_of_used _ _ RecState.noConfusion

/-- The record's last cell has gone out, or more are to come. -/
theorem endSend_of_last (h : (s.record n).cellCount ≤ (s.record n).cellsSent) :
    endSend k n s = ((s.setRecord n { s.record n with state := .sent }).setLive k (s.liveQueue k).tail).modChan (chanOf k)
      fun c => { c with current := none } := if_neg (Nat.not_lt_of_le h)

theorem endSend_of_more (h : (s.record n).cellsSent < (s.record n).cellCount) : endSend k n s = s := if_pos h

theorem grantLive_of_cons {q : List Nat} (hq : s.liveQueue k = n :: q) :
    grantLive k s = endSend k n ((sendNext (chanOf k) n (beginSend k n s)).count k .cellsLive) := by
  unfold grantLive
  rw [hq]

theorem grant_chanOf (k : Port) (s : State) : grant (chanOf k) s = grantLive k s := by
  unfold grant
  rw [portOf_chanOf]

/-- What the last cell of a live send leaves (R103). -/
theorem endSend_last_spec {q : List Nat} {r : FrameRecord} (hrec : s.record n = r) (hq : s.liveQueue k = n :: q)
    (h : r.cellCount ≤ r.cellsSent) :
    (endSend k n s).record n = { r with state := .sent } ∧ (endSend k n s).liveQueue k = q ∧
      (∀ j : Port, j ≠ k → (endSend k n s).liveQueue j = s.liveQueue j) ∧
      ((endSend k n s).chan (chanOf k)).current = none ∧ (endSend k n s).uplink.sent = s.uplink.sent ∧
      (endSend k n s).events = s.events ∧ (endSend k n s).recalls = s.recalls ∧ SendFrame s (endSend k n s) := by
  subst hrec
  have hset := State.record_setRecord_of_used s n (r := { s.record n with state := .sent }) RecState.noConfusion
  rw [endSend_of_last h, State.record_modChan, State.record_setLive, hset, State.liveQueue_modChan,
    State.liveQueue_setLive, hq, State.chan_modChan]
  refine ⟨rfl, rfl, fun j hj => ?_, rfl, rfl, rfl, rfl, ⟨rfl, rfl, rfl, rfl, rfl, rfl, rfl, rfl⟩⟩
  rw [State.liveQueue_modChan, State.liveQueue_setLive_ne _ _ hj, State.liveQueue_setRecord]

/-- The end of a send leaves what was reported of its cell. -/
theorem endSend_reported (k : Port) (n : Nat) (s : State) :
    (endSend k n s).uplink.sent = s.uplink.sent ∧ ((endSend k n s).record n).readError = (s.record n).readError ∧
      (endSend k n s).events = s.events := by
  rcases Nat.lt_or_ge (s.record n).cellsSent (s.record n).cellCount with h | h
  · rw [endSend_of_more h]
    exact ⟨rfl, rfl, rfl⟩
  · have hrec := State.record_setRecord_of_used s n (r := { s.record n with state := .sent }) RecState.noConfusion
    rw [endSend_of_last h]
    have hread := congrArg FrameRecord.readError hrec
    exact ⟨rfl, hread, rfl⟩

end

/-! ### The cell sent while no block is in error -/

theorem dataCell_eq_soundCell (s : State) (c : Chan) (r : FrameRecord) (i : Nat) :
    dataCell c r i false s.link.state ((if i = 0 then descriptor r else []) ++
      frameBytes s r (cellRange r i).1 (cellRange r i).2) = soundCell s c r i := by
  unfold dataCell soundCell cellRange
  by_cases hi : i = 0
  · simp only [if_pos hi]
    rfl
  · simp only [if_neg hi]
    rfl

theorem sendNext_sound {s : State} {n : Nat} (c : Chan)
    (hs : bytesSound s (s.record n) (cellRange (s.record n) (s.record n).cellsSent).1
      (cellRange (s.record n) (s.record n).cellsSent).2) :
    sendNext c n s = sendCell (soundCell s c (s.record n) (s.record n).cellsSent)
      (s.setRecord n { s.record n with cellsSent := (s.record n).cellsSent + 1 }) := by
  unfold sendNext
  dsimp only
  rw [readCell_sound hs]
  dsimp only
  rw [← dataCell_eq_soundCell]
  rfl

theorem soundCell_congr {s t : State} (hmem : t.store.mem = s.store.mem) (hlink : t.link = s.link) (c : Chan)
    (r : FrameRecord) (i : Nat) : soundCell t c r i = soundCell s c r i := by
  have hbytes : ∀ lo hi, frameBytes t r lo hi = frameBytes s r lo hi := fun lo hi => by
    unfold frameBytes readByte
    rw [hmem]
  unfold soundCell
  rw [hlink]
  simp only [hbytes]

theorem bytesSound_congr {s t : State} (hhealth : t.store.health = s.store.health) {r : FrameRecord} {lo hi : Nat}
    (h : bytesSound s r lo hi) : bytesSound t r lo hi := fun b h1 h2 => by
  unfold State.blockHealth
  rw [hhealth]
  exact h b h1 h2

theorem sendingRecord_used (r₀ : FrameRecord) :
    (if r₀.state = .sending then r₀ else { r₀ with state := .sending, cellsSent := 0 }).state = .sending := by
  split
  · assumption
  · rfl

/-- A cell sent from record `n` and counted for port `k`. -/
theorem countedCell_spec {s x : State} {n : Nat} {cell : UplinkCell} (k : Port)
    (hx : x = sendCell cell (s.setRecord n { s.record n with cellsSent := (s.record n).cellsSent + 1 }))
    (hused : (s.record n).state ≠ .free) :
    (x.count k .cellsLive).record n = { s.record n with cellsSent := (s.record n).cellsSent + 1 } ∧
      (x.count k .cellsLive).uplink.sent = some cell ∧
      (∀ j, (x.count k .cellsLive).liveQueue j = s.liveQueue j) ∧
      (x.count k .cellsLive).chan (chanOf k) = s.chan (chanOf k) ∧
      (x.count k .cellsLive).events = (s.count k .cellsLive).events ∧
      (x.count k .cellsLive).recalls = s.recalls ∧ SendFrame s (x.count k .cellsLive) := by
  subst hx
  have hrec := State.record_setRecord_of_used s n
    (r := { s.record n with cellsSent := (s.record n).cellsSent + 1 }) hused
  exact ⟨hrec, rfl, fun _ => rfl, rfl, rfl, rfl, ⟨rfl, rfl, rfl, rfl, rfl, rfl, rfl, rfl⟩⟩

/-- One cell of a live send under way in device `v`, no block it reads in error. -/
theorem liveCell_sound {v : State} {k : Port} {n : Nat} {q : List Nat} {r : FrameRecord} {last : Bool}
    (hrec : v.record n = r) (hstate : r.state = .sending) (hq : v.liveQueue k = n :: q)
    (hsound : bytesSound v r (cellRange r r.cellsSent).1 (cellRange r r.cellsSent).2)
    (hmore : r.cellsSent < r.cellCount) (hlast : last = decide (r.cellsSent + 1 = r.cellCount)) {t : State}
    (ht : t = endSend k n ((sendNext (chanOf k) n v).count k .cellsLive)) :
    t.uplink.sent = some (soundCell v (chanOf k) r r.cellsSent) ∧
      t.record n = { r with cellsSent := r.cellsSent + 1, state := if last then .sent else .sending } ∧
      t.liveQueue k = (if last then q else n :: q) ∧ (∀ j : Port, j ≠ k → t.liveQueue j = v.liveQueue j) ∧
      (last → (t.chan (chanOf k)).current = none) ∧ (¬last → t.chan (chanOf k) = v.chan (chanOf k)) ∧
      t.events = (v.count k .cellsLive).events ∧ t.recalls = v.recalls ∧ SendFrame v t := by
  subst hrec
  obtain ⟨hxrec, hxsent, hxqueue, hxchan, hxevents, hxrecalls, hxframe⟩ :=
    countedCell_spec k (sendNext_sound (chanOf k) hsound) (by rw [hstate]; exact RecState.noConfusion)
  generalize (sendNext (chanOf k) n v).count k .cellsLive = x at ht hxrec hxsent hxqueue hxchan hxevents hxrecalls hxframe
  subst ht
  have hxq := (hxqueue k).trans hq
  by_cases hend : (v.record n).cellsSent + 1 = (v.record n).cellCount
  · obtain ⟨htrec, htq, hothers, htchan, htsent, htevents, htrecalls, htframe⟩ :=
      endSend_last_spec hxrec hxq (Nat.le_of_eq hend.symm)
    rw [decide_eq_true hend] at hlast
    subst hlast
    exact ⟨htsent.trans hxsent, htrec, htq, fun j hj => (hothers j hj).trans (hxqueue j), fun _ => htchan,
      nofun, htevents.trans hxevents, htrecalls.trans hxrecalls, hxframe.trans htframe⟩
  · rw [endSend_of_more (by rw [hxrec]; exact Nat.lt_of_le_of_ne hmore hend)]
    rw [decide_eq_false hend] at hlast
    subst hlast
    rw [hxrec, ← hstate]
    exact ⟨hxsent, rfl, hxq, fun j _ => hxqueue j, nofun, fun _ => hxchan, hxevents, hxrecalls, hxframe⟩

/-- Settles O34: the send begins, its cell is reported or sound, and the send ends at the last cell. -/
theorem dataSlotSendsLiveCell : Obligations.DataSlotSendsLiveCell := by
  refine ⟨fun s p errors k n q r hp hwinner hq hr hmore => ?_, fun s k n q r last hwinner hq hr hmore hsound hlast => ?_⟩
  · obtain ⟨up, hslot, hlive⟩ := dataSlot_of_winner_spoiled errors hwinner
    obtain ⟨health, hspoiled⟩ := foldl_spoilBlock errors s
    have hused : r.state ≠ .free := by rw [hr, sendingRecord_used]; exact RecState.noConfusion
    rw [← hp] at hslot hspoiled
    have hrun : exec (.dataSlot errors) s = .next (dataSlot p) := by rw [exec_dataSlot, hp]
    have hr' : r = if (({ p with uplink := up } : State).record n).state = .sending
        then ({ p with uplink := up } : State).record n
        else { ({ p with uplink := up } : State).record n with state := .sending, cellsSent := 0 } := by
      rw [hspoiled]
      exact hr
    obtain ⟨hrec, -, hevents, -, -, hframe⟩ := beginSend_spec k { p with uplink := up } hr'
    have hq' : ({ p with uplink := up } : State).liveQueue k = n :: q := by
      unfold State.liveQueue at hq ⊢
      rw [← hq]
      exact congrArg (fun v : PerPort (List Nat) => v[k]) hlive
    rw [grant_chanOf, grantLive_of_cons hq'] at hslot
    generalize beginSend k n { p with uplink := up } = v at hslot hrec hevents hframe
    obtain ⟨hreport, -⟩ := sendNext_reported (chanOf k) n v (by rwa [hrec])
    rw [hrec] at hreport
    obtain ⟨hcell, hread, hev⟩ := endSend_reported k n ((sendNext (chanOf k) n v).count k .cellsLive)
    have hflags := congrArg Events.flags hev
    have hcounts := fun d : GlobalCount => congrArg (fun e : Events => e.globalCounts[d.idx]) hev
    refine ⟨_, hrun, ?_⟩
    rw [hslot]
    exact cellReported_congr hreport hframe.mem.symm hframe.health.symm hframe.link.symm hevents.symm hcell hread
      (fun d _ => hcounts d) hflags
  · obtain ⟨up, hslot, hlive⟩ := dataSlot_of_winner hwinner
    have hr' : r = if (({ s with uplink := up } : State).record n).state = .sending
        then ({ s with uplink := up } : State).record n
        else { ({ s with uplink := up } : State).record n with state := .sending, cellsSent := 0 } := hr
    have hqueue : ∀ j, ({ s with uplink := up } : State).liveQueue j = s.liveQueue j := fun j =>
      congrArg (fun v : PerPort (List Nat) => v[j]) hlive
    obtain ⟨hrec, hvlive, hevents, hrecalls, hcurrent, hframe⟩ := beginSend_spec k { s with uplink := up } hr'
    rw [grant_chanOf, grantLive_of_cons ((hqueue k).trans hq)] at hslot
    generalize beginSend k n { s with uplink := up } = v at hslot hrec hvlive hevents hrecalls hcurrent hframe
    have hvqueue : ∀ j, v.liveQueue j = s.liveQueue j := fun j =>
      (congrArg (fun v : PerPort (List Nat) => v[j]) hvlive).trans (hqueue j)
    obtain ⟨hsent, htrec, htq, hothers, hlastChan, hmoreChan, htevents, htrecalls, htframe⟩ :=
      liveCell_sound hrec (by rw [hr, sendingRecord_used]) ((hvqueue k).trans hq)
        (bytesSound_congr hframe.health hsound) hmore hlast hslot
    have hall := hframe.trans htframe
    refine ⟨dataSlot s, rfl, hsent.trans (congrArg some (soundCell_congr hframe.mem hframe.link _ _ _)), htrec, htq,
      fun j hj => (hothers j hj).trans (hvqueue j), hlastChan,
      fun hl hns => by rw [hmoreChan hl, hcurrent hns], ?_, htrecalls.trans hrecalls, hall.ageList, hall.mem,
      hall.cams, hall.sups, hall.shots, hall.link⟩
    rw [htevents]
    unfold State.count
    rw [hevents]

end Sys2Proof.Machine
end

section
/-! PROOFS. Data slots granted to channel 8 (R104, R112, R113, R169). -/

namespace Sys2Proof.Machine

section

variable {s : State} {e : RecallEntry} {q : List RecallEntry}

/-- The queue and the record as a recall finds them at the grant. -/
theorem beginRecall_spec (hq : s.recalls.queue = e :: q) (hfree : (s.record e.record).state ≠ .free) {r : FrameRecord}
    (hr : r = if e.started then s.record e.record else { s.record e.record with cellsSent := 0 }) :
    (beginRecall e s).record e.record = r ∧ (beginRecall e s).recalls.queue = { e with started := true } :: q ∧
      (beginRecall e s).events = s.events ∧ (beginRecall e s).uplink.live = s.uplink.live ∧
      (e.started = false → ((beginRecall e s).chan 8).current = some e.record) ∧ SendFrame s (beginRecall e s) := by
  unfold beginRecall
  cases hstarted : e.started with
  | true =>
    rw [hstarted] at hr
    rw [if_pos rfl]
    refine ⟨hr.symm, ?_, rfl, rfl, nofun, .refl s⟩
    rw [hq, ← hstarted]
  | false =>
    rw [hstarted, if_neg Bool.false_ne_true] at hr
    have hset : setHeadStarted true s =
        { s with recalls := { s.recalls with queue := { e with started := true } :: q } } := by
      unfold setHeadStarted
      rw [hq]
    rw [if_neg Bool.false_ne_true, hset, hr]
    refine ⟨?_, rfl, rfl, rfl, fun _ => congrArg Channel.current (State.chan_modChan _ recallChan _),
      ⟨rfl, rfl, rfl, rfl, rfl, rfl, rfl, rfl⟩⟩
    exact State.record_setRecord_of_used _ _ (r := { s.record e.record with cellsSent := 0 }) hfree

theorem grantRecall_of_cons (hq : s.recalls.queue = e :: q) :
    grantRecall s = endRecall e.record
      ((sendNext recallChan e.record (beginRecall e s)).countGlobal .cellsRecall 1) := by
  unfold grantRecall
  rw [hq]

theorem grant_recallChan (s : State) : grant 8 s = grantRecall s := rfl

/-- The record once its recall is complete (R113). -/
def FrameRecord.recalled (r : FrameRecord) : FrameRecord :=
  { r with recallPending := false, state := if r.state = .held then .sent else r.state }

theorem FrameRecord.recalled_used {r : FrameRecord} (h : r.state ≠ .free) : r.recalled.state ≠ .free := by
  unfold recalled
  dsimp only
  split
  · exact RecState.noConfusion
  · exact h

variable {n : Nat}

/-- The recall's last cell has gone out, or more are to come. -/
theorem endRecall_of_last (h : (s.record n).cellCount ≤ (s.record n).cellsSent) :
    endRecall n s = (({ s with recalls := { s.recalls with queue := s.recalls.queue.tail } } : State).setRecord n
      (s.record n).recalled).modChan recallChan fun c => { c with current := none } := if_neg (Nat.not_lt_of_le h)

theorem endRecall_of_more (h : (s.record n).cellsSent < (s.record n).cellCount) : endRecall n s = s := if_pos h

/-- What the last cell of a recall leaves (R113). -/
theorem endRecall_last_spec {r : FrameRecord} (hrec : s.record n = r) (hfree : r.state ≠ .free)
    (hq : s.recalls.queue = e :: q) (h : r.cellCount ≤ r.cellsSent) :
    (endRecall n s).record n = r.recalled ∧ (endRecall n s).recalls.queue = q ∧
      ((endRecall n s).chan 8).current = none ∧ (endRecall n s).uplink.sent = s.uplink.sent ∧
      (endRecall n s).events = s.events ∧ (endRecall n s).uplink.live = s.uplink.live ∧
      SendFrame s (endRecall n s) := by
  subst hrec
  have hset := State.record_setRecord_of_used
    ({ s with recalls := { s.recalls with queue := s.recalls.queue.tail } } : State) n (FrameRecord.recalled_used hfree)
  rw [endRecall_of_last h, State.record_modChan, hset]
  exact ⟨rfl, congrArg List.tail hq, congrArg Channel.current (State.chan_modChan _ recallChan _), rfl, rfl, rfl,
    ⟨rfl, rfl, rfl, rfl, rfl, rfl, rfl, rfl⟩⟩

/-- The end of a recall leaves what was reported of its cell. -/
theorem endRecall_reported (hfree : (s.record n).state ≠ .free) :
    (endRecall n s).uplink.sent = s.uplink.sent ∧
      ((endRecall n s).record n).readError = (s.record n).readError ∧ (endRecall n s).events = s.events := by
  rcases Nat.lt_or_ge (s.record n).cellsSent (s.record n).cellCount with h | h
  · rw [endRecall_of_more h]
    exact ⟨rfl, rfl, rfl⟩
  · have hrec := State.record_setRecord_of_used
      ({ s with recalls := { s.recalls with queue := s.recalls.queue.tail } } : State) n
      (FrameRecord.recalled_used hfree)
    have hread := congrArg FrameRecord.readError hrec
    rw [endRecall_of_last h]
    exact ⟨rfl, hread, rfl⟩

/-- A recall's cell sent from record `n` and counted. -/
theorem countedRecallCell_spec {s x : State} {cell : UplinkCell}
    (hx : x = sendCell cell (s.setRecord n { s.record n with cellsSent := (s.record n).cellsSent + 1 }))
    (hused : (s.record n).state ≠ .free) :
    (x.countGlobal .cellsRecall 1).record n = { s.record n with cellsSent := (s.record n).cellsSent + 1 } ∧
      (x.countGlobal .cellsRecall 1).uplink.sent = some cell ∧
      (x.countGlobal .cellsRecall 1).recalls = s.recalls ∧
      (x.countGlobal .cellsRecall 1).chan 8 = s.chan 8 ∧
      (x.countGlobal .cellsRecall 1).events = (s.countGlobal .cellsRecall 1).events ∧
      (x.countGlobal .cellsRecall 1).uplink.live = s.uplink.live ∧ SendFrame s (x.countGlobal .cellsRecall 1) := by
  subst hx
  have hrec := State.record_setRecord_of_used s n
    (r := { s.record n with cellsSent := (s.record n).cellsSent + 1 }) hused
  exact ⟨hrec, rfl, rfl, rfl, rfl, rfl, ⟨rfl, rfl, rfl, rfl, rfl, rfl, rfl, rfl⟩⟩

/-- One cell of a recall under way in device `v`, no block it reads in error. -/
theorem recallCell_sound {v : State} {r : FrameRecord} {last : Bool} (hrec : v.record n = r)
    (hfree : r.state ≠ .free) (hq : v.recalls.queue = e :: q)
    (hsound : bytesSound v r (cellRange r r.cellsSent).1 (cellRange r r.cellsSent).2)
    (hmore : r.cellsSent < r.cellCount) (hlast : last = decide (r.cellsSent + 1 = r.cellCount)) {t : State}
    (ht : t = endRecall n ((sendNext recallChan n v).countGlobal .cellsRecall 1)) :
    t.uplink.sent = some (soundCell v 8 r r.cellsSent) ∧
      t.record n = { r with
        cellsSent := r.cellsSent + 1
        recallPending := if last then false else r.recallPending
        state := if last ∧ r.state = .held then .sent else r.state } ∧
      t.recalls.queue = (if last then q else e :: q) ∧
      (last → (t.chan 8).current = none) ∧ (¬last → t.chan 8 = v.chan 8) ∧
      t.events = (v.countGlobal .cellsRecall 1).events ∧ t.uplink.live = v.uplink.live ∧ SendFrame v t := by
  subst hrec
  obtain ⟨hxrec, hxsent, hxrecalls, hxchan, hxevents, hxlive, hxframe⟩ :=
    countedRecallCell_spec (sendNext_sound recallChan hsound) hfree
  generalize (sendNext recallChan n v).countGlobal .cellsRecall 1 = x at ht hxrec hxsent hxrecalls hxchan hxevents hxlive hxframe
  subst ht
  have hxq : x.recalls.queue = e :: q := by rw [hxrecalls, hq]
  by_cases hend : (v.record n).cellsSent + 1 = (v.record n).cellCount
  · obtain ⟨htrec, htq, htchan, htsent, htevents, htlive, htframe⟩ :=
      endRecall_last_spec hxrec hfree hxq (Nat.le_of_eq hend.symm)
    rw [decide_eq_true hend] at hlast
    subst hlast
    refine ⟨htsent.trans hxsent, htrec.trans ?_, htq, fun _ => htchan, nofun, htevents.trans hxevents,
      htlive.trans hxlive, hxframe.trans htframe⟩
    simp only [FrameRecord.recalled, true_and, if_true]
  · rw [endRecall_of_more (by rw [hxrec]; exact Nat.lt_of_le_of_ne hmore hend)]
    rw [decide_eq_false hend] at hlast
    subst hlast
    exact ⟨hxsent, hxrec.trans rfl, hxq, nofun, fun _ => hxchan, hxevents, hxlive, hxframe⟩

end

theorem recallRecord_used {e : RecallEntry} {r₀ r : FrameRecord} (h : r₀.state ≠ .free)
    (hr : r = if e.started then r₀ else { r₀ with cellsSent := 0 }) : r.state ≠ .free := by
  rw [hr]
  split
  · exact h
  · exact h

/-- Settles O35: the recall begins, its cell is reported or sound, and the recall ends at the last cell. -/
theorem dataSlotSendsRecallCell : Obligations.DataSlotSendsRecallCell := by
  refine ⟨fun s p errors e q r hp hwinner hq hfree hr hmore => ?_,
    fun s e q r last hwinner hq hfree hr hmore hsound hlast => ?_⟩
  · obtain ⟨up, hslot, -⟩ := dataSlot_of_winner_spoiled errors hwinner
    obtain ⟨health, hspoiled⟩ := foldl_spoilBlock errors s
    rw [← hp] at hslot hspoiled
    have hrun : exec (.dataSlot errors) s = .next (dataSlot p) := by rw [exec_dataSlot, hp]
    have hq' : ({ p with uplink := up } : State).recalls.queue = e :: q := by rw [hspoiled]; exact hq
    have hfree' : (({ p with uplink := up } : State).record e.record).state ≠ .free := by rw [hspoiled]; exact hfree
    have hr' : r = if e.started then ({ p with uplink := up } : State).record e.record
        else { ({ p with uplink := up } : State).record e.record with cellsSent := 0 } := by
      rw [hspoiled]
      exact hr
    have hused := recallRecord_used hfree hr
    obtain ⟨hrec, -, hevents, -, -, hframe⟩ := beginRecall_spec hq' hfree' hr'
    rw [grant_recallChan, grantRecall_of_cons hq'] at hslot
    generalize beginRecall e { p with uplink := up } = v at hslot hrec hevents hframe
    obtain ⟨hreport, _, hsentRec⟩ := sendNext_reported recallChan e.record v (by rwa [hrec])
    rw [hrec] at hreport
    obtain ⟨hcell, hread, hev⟩ := endRecall_reported (n := e.record)
      (s := (sendNext recallChan e.record v).countGlobal .cellsRecall 1) (by
        change ((sendNext recallChan e.record v).record e.record).state ≠ .free
        rw [hsentRec, hrec]
        exact hused)
    have hflags := congrArg Events.flags hev
    have hcounts : ∀ d : GlobalCount, d ≠ .cellsRecall →
        (endRecall e.record ((sendNext recallChan e.record v).countGlobal .cellsRecall 1)).globalCount d =
          (sendNext recallChan e.record v).globalCount d := fun d hd =>
      calc _ = ((sendNext recallChan e.record v).countGlobal .cellsRecall 1).globalCount d :=
            congrArg (fun ev : Events => ev.globalCounts[d.idx]) hev
        _ = _ := by rw [globalCount_countGlobal, if_neg hd, add_zero]
    refine ⟨_, hrun, ?_⟩
    rw [hslot]
    exact cellReported_congr hreport hframe.mem.symm hframe.health.symm hframe.link.symm hevents.symm hcell hread
      hcounts hflags
  · obtain ⟨up, hslot, hlive⟩ := dataSlot_of_winner hwinner
    obtain ⟨hrec, hvqueue, hevents, hvlive, hcurrent, hframe⟩ :=
      beginRecall_spec (s := { s with uplink := up }) hq hfree hr
    rw [grant_recallChan, grantRecall_of_cons (s := { s with uplink := up }) hq] at hslot
    generalize beginRecall e { s with uplink := up } = v at hslot hrec hvqueue hevents hvlive hcurrent hframe
    obtain ⟨hsent, htrec, htq, hlastChan, hmoreChan, htevents, htlive, htframe⟩ :=
      recallCell_sound hrec (recallRecord_used hfree hr) hvqueue (bytesSound_congr hframe.health hsound) hmore hlast
        hslot
    have hall := hframe.trans htframe
    refine ⟨dataSlot s, rfl, hsent.trans (congrArg some (soundCell_congr hframe.mem hframe.link _ _ _)), htrec, htq,
      hlastChan, fun hl hs => by rw [hmoreChan hl, hcurrent hs], ?_, (htlive.trans hvlive).trans hlive, hall.marks,
      hall.ageList, hall.mem, hall.shots, hall.link⟩
    rw [htevents]
    unfold State.countGlobal
    rw [hevents]

end Sys2Proof.Machine
end
